-- ==== Sys2Proof/Word.lean ====
section
/-! DEFINITION. The word types of the PLBMesh protocol core (00_scope.md R8, R9). -/

namespace Sys2Proof

/-- One byte of a frame; bit 7 is the most significant bit (R8). -/
abbrev Byte := BitVec 8

/-- One 32-bit register or data word of the host port (R60, R77). -/
abbrev Word := BitVec 32

/-- A frame buffer: sixteen bytes, byte 0 first (10_state.md R40, R52). -/
abbrev Buffer := Vector Byte 16

end Sys2Proof
end

