-- ==== Sys2Proof/Syntax.lean ====
section
/-! DEFINITION. The instructions: one constructor per row of spec/opcode_table.json, and the lines of the block
that carry them (30_encoding.md R110 to R114, 40_codec.md R140). -/

namespace Sys2Proof

/-- R140: a field set. Each field is a natural number; `latitude` and `longitude` are 32-bit patterns (R147). -/
structure FieldSet where
  formatFlag     : Nat
  radioId        : Nat
  panic          : Nat
  messageId      : Nat
  latitude       : Nat
  longitude      : Nat
  batteryPercent : Nat
  utcTimestamp   : Nat
  deriving DecidableEq, Repr

/-- The twelve commands of R111. -/
inductive Command where
  | nop
  | encodeBeacon
  | decodeBeacon
  | encodeAck
  | decodeAck
  | repackLegacy
  | getRadioId
  | getMessageId
  | beginWait
  | ackReceived
  | pollTimeout
  | abortWait
  deriving DecidableEq, Repr

/-- One constructor per row of the opcode table.
`tick` and `edgeStandby` carry the edge bits driven in the same strobe vector (R114, R212).
A frame form carries the fields of its layout; `ackNew` also the reserved bit, byte 1 bit 7 (R104). -/
inductive Instr where
  | nop
  | encodeBeacon
  | decodeBeacon
  | encodeAck
  | decodeAck
  | repackLegacy
  | getRadioId
  | getMessageId
  | beginWait
  | ackReceived
  | pollTimeout
  | abortWait
  | rd (index : BitVec 6)
  | wr (index : BitVec 6) (data : Word)
  | tick (standbyEdge : Bool) (panicEdge : Bool)
  | edgeStandby (panicEdge : Bool)
  | edgePanic
  | reset
  | beaconLegacy (fields : FieldSet)
  | beaconNew (fields : FieldSet)
  | ackLegacy (radioId : Nat) (messageId : Nat)
  | ackNew (radioId : Nat) (reserved : Bool) (messageId : Nat)
  deriving DecidableEq, Repr

/-- The instruction a command stands for. -/
def Command.toInstr : Command → Instr
  | .nop          => .nop
  | .encodeBeacon => .encodeBeacon
  | .decodeBeacon => .decodeBeacon
  | .encodeAck    => .encodeAck
  | .decodeAck    => .decodeAck
  | .repackLegacy => .repackLegacy
  | .getRadioId   => .getRadioId
  | .getMessageId => .getMessageId
  | .beginWait    => .beginWait
  | .ackReceived  => .ackReceived
  | .pollTimeout  => .pollTimeout
  | .abortWait    => .abortWait

/-- What is driven on the block's lines in one step: a command word (`CMD <mnemonic>` of R115, the data word of
a WR of `CMD`), a bus transaction (R113), a strobe vector (R114), the reset line (R340), or a frame on the air. -/
inductive Signal where
  | command (word : Word)
  | bus (address : BitVec 7) (data : Word)
  | strobe (vector : BitVec 3)
  | resetLine
  | wire (bytes : List Byte)
  deriving DecidableEq, Repr

end Sys2Proof
end

