-- ==== Sys2Proof/WellFormed.lean ====
section
/-! DEFINITION. Which instructions the encodings of 30_encoding.md can hold. -/

namespace Sys2Proof

/-- R103: the tail's widths, the same in both layouts. -/
def FieldSet.tailFits (f : FieldSet) : Bool :=
  decide (f.latitude < 2 ^ 32) && decide (f.longitude < 2 ^ 32) &&
    decide (f.batteryPercent < 2 ^ 8) && decide (f.utcTimestamp < 2 ^ 32)

/-- R101: the fields a legacy frame holds; the layout has no panic bit, so `panic` is 0 (R145). -/
def FieldSet.fitsLegacy (f : FieldSet) : Bool :=
  decide (f.formatFlag = 0) && decide (f.radioId < 2 ^ 15) && decide (f.panic = 0) &&
    decide (f.messageId < 2 ^ 8) && f.tailFits

/-- R102: the fields a new-format frame holds. -/
def FieldSet.fitsNew (f : FieldSet) : Bool :=
  decide (f.formatFlag = 1) && decide (f.radioId < 2 ^ 7) && decide (f.panic < 2) &&
    decide (f.messageId < 2 ^ 15) && f.tailFits

/-- An instruction whose operands fit its encoding. The operands of the control rows fit by their types; the
fields of a frame form must fit the widths of its layout (R101 to R104). -/
def Instr.wellFormed : Instr → Bool
  | .nop => true
  | .encodeBeacon => true
  | .decodeBeacon => true
  | .encodeAck => true
  | .decodeAck => true
  | .repackLegacy => true
  | .getRadioId => true
  | .getMessageId => true
  | .beginWait => true
  | .ackReceived => true
  | .pollTimeout => true
  | .abortWait => true
  | .rd _ => true
  | .wr _ _ => true
  | .tick _ _ => true
  | .edgeStandby _ => true
  | .edgePanic => true
  | .reset => true
  | .beaconLegacy f => f.fitsLegacy
  | .beaconNew f => f.fitsNew
  | .ackLegacy rid mid => decide (rid < 2 ^ 15) && decide (mid < 2 ^ 8)
  | .ackNew rid _ mid => decide (rid < 2 ^ 7) && decide (mid < 2 ^ 15)

end Sys2Proof
end

