-- ==== Sys2Proof/Decode.lean ====
section
/-! DEFINITION. The encodings of 30_encoding.md: frame layouts (R100 to R106), command words (R110, R111), bus
transactions (R113) and strobe vectors (R114); the decoder, total on every signal, and the encoder. -/

namespace Sys2Proof

/-! ### Frame bytes -/

/-- Byte `i` of a sequence, as a natural number (R8). -/
def byteAt (b : List Byte) (i : Nat) : Nat := (b.getD i 0).toNat

/-- The low eight bits of `n` as a byte. -/
def byteOf (n : Nat) : Byte := BitVec.ofNat 8 n

/-- `MemRead(b, off, n)` (R11, R72): `n` bytes, least significant first. -/
def memRead (b : List Byte) (off : Nat) : Nat → Nat
  | 0 => 0
  | n + 1 => byteAt b off ||| (memRead b (off + 1) n <<< 8)

/-- The `n` bytes that `MemWrite` stores for `v` (R11, R72), least significant first. -/
def leBytes : Nat → Nat → List Byte
  | 0, _ => []
  | n + 1, v => byteOf v :: leBytes n (v >>> 8)

/-- R100: bit 7 of byte 0, the format flag. -/
def formatBit (b : List Byte) : Nat := byteAt b 0 >>> 7

/-- The legacy `radioId` of bytes 0 and 1: `((b[0] & 0x7F) << 8) | b[1]` (R101, R104, R105). -/
def wideRadioId (b : List Byte) : Nat := ((byteAt b 0 &&& 0x7F) <<< 8) ||| byteAt b 1

/-- The new `messageId` of bytes 1 and 2: `((b[1] & 0x7F) << 8) | b[2]` (R102, R104, R105). -/
def wideMessageId (b : List Byte) : Nat := ((byteAt b 1 &&& 0x7F) <<< 8) ||| byteAt b 2

/-- R105: field extraction from a beacon frame. A legacy frame gives `panic = 0` (R145). -/
def extractBeacon (b : List Byte) : FieldSet :=
  if formatBit b = 1 then
    { formatFlag := 1, radioId := byteAt b 0 &&& 0x7F, panic := byteAt b 1 >>> 7,
      messageId := wideMessageId b, latitude := memRead b 3 4, longitude := memRead b 7 4,
      batteryPercent := byteAt b 11, utcTimestamp := memRead b 12 4 }
  else
    { formatFlag := 0, radioId := wideRadioId b, panic := 0,
      messageId := byteAt b 2, latitude := memRead b 3 4, longitude := memRead b 7 4,
      batteryPercent := byteAt b 11, utcTimestamp := memRead b 12 4 }

/-- R106: bytes 0..2 of a beacon frame. -/
def beaconHeader (fs : FieldSet) : List Byte :=
  if fs.formatFlag = 0 then
    [byteOf (fs.radioId >>> 8), byteOf (fs.radioId &&& 0xFF), byteOf fs.messageId]
  else
    [byteOf (0x80 ||| fs.radioId), byteOf ((fs.panic <<< 7) ||| (fs.messageId >>> 8)),
      byteOf (fs.messageId &&& 0xFF)]

/-- R103, R106: bytes 3..15 of a beacon frame. -/
def beaconTail (fs : FieldSet) : List Byte :=
  leBytes 4 fs.latitude ++ leBytes 4 fs.longitude ++ [byteOf fs.batteryPercent] ++
    leBytes 4 fs.utcTimestamp

/-- R106: field insertion into a beacon frame. -/
def insertBeacon (fs : FieldSet) : List Byte := beaconHeader fs ++ beaconTail fs

/-- R104: the new form of an ack frame, with its reserved bit. -/
def insertAckNew (rid : Nat) (reserved : Bool) (mid : Nat) : List Byte :=
  [byteOf (0x80 ||| rid), byteOf ((reserved.toNat <<< 7) ||| (mid >>> 8)), byteOf (mid &&& 0xFF)]

/-- R104: the legacy form of an ack frame. -/
def insertAckLegacy (rid mid : Nat) : List Byte :=
  [byteOf (rid >>> 8), byteOf (rid &&& 0xFF), byteOf mid]

/-! ### The decoder -/

/-- Why a signal stands for no row of the opcode table. What the block does then is the spec's
(`Machine.takeUndecoded`): none of these stops the machine. -/
inductive DecodeError where
  /-- A command word with `CMD[31:8] ≠ 0` or `OP ≥ 0x0C` (R110, R112). -/
  | illegalCommand (word : Word)
  /-- A strobe vector with no bit set: no agent acts. -/
  | emptyStrobe
  /-- A frame of a length other than 16 and 3 (R108). -/
  | frameLength (bytes : List Byte)
  deriving DecidableEq, Repr

/-- R111: the opcode map. -/
def decodeOpcode (op : BitVec 8) : Option Command :=
  match op.toNat with
  | 0x00 => some .nop
  | 0x01 => some .encodeBeacon
  | 0x02 => some .decodeBeacon
  | 0x03 => some .encodeAck
  | 0x04 => some .decodeAck
  | 0x05 => some .repackLegacy
  | 0x06 => some .getRadioId
  | 0x07 => some .getMessageId
  | 0x08 => some .beginWait
  | 0x09 => some .ackReceived
  | 0x0A => some .pollTimeout
  | 0x0B => some .abortWait
  | _ => none

/-- R110, R292: the command of a command word; `CMD[31:8]` must be zero. -/
def decodeCommand (w : Word) : Option Command :=
  if w.extractLsb' 8 24 ≠ 0 then none else decodeOpcode (w.extractLsb' 0 8)

/-- R113: bit 6 of the address phase is `W`, bits 5:0 are `INDEX`. The data word of a read is the response
and is not read (log 14). -/
def decodeBus (address : BitVec 7) (data : Word) : Instr :=
  if address.getLsbD 6 then .wr (address.extractLsb' 0 6) data else .rd (address.extractLsb' 0 6)

/-- R114: bit 0 is TICK, bit 1 the standby edge, bit 2 the panic edge; several may be set (R212, log 13). -/
def decodeStrobe (v : BitVec 3) : Except DecodeError Instr :=
  if v.getLsbD 0 then .ok (.tick (v.getLsbD 1) (v.getLsbD 2))
  else if v.getLsbD 1 then .ok (.edgeStandby (v.getLsbD 2))
  else if v.getLsbD 2 then .ok .edgePanic
  else .error .emptyStrobe

/-- R100, R104, R108: a frame form by its length and by bit 7 of byte 0. -/
def decodeWire (b : List Byte) : Except DecodeError Instr :=
  if b.length = 16 then
    if formatBit b = 1 then .ok (.beaconNew (extractBeacon b)) else .ok (.beaconLegacy (extractBeacon b))
  else if b.length = 3 then
    if formatBit b = 1 then
      .ok (.ackNew (byteAt b 0 &&& 0x7F) (byteAt b 1 >>> 7 == 1) (wideMessageId b))
    else .ok (.ackLegacy (wideRadioId b) (byteAt b 2))
  else .error (.frameLength b)

/-- The instruction a signal stands for, or the name of the reason there is none. -/
def decode : Signal → Except DecodeError Instr
  | .command w =>
    match decodeCommand w with
    | some c => .ok c.toInstr
    | none => .error (.illegalCommand w)
  | .bus a d => .ok (decodeBus a d)
  | .strobe v => decodeStrobe v
  | .resetLine => .ok .reset
  | .wire b => decodeWire b

/-! ### The encoder -/

/-- R113: the address phase. -/
def busAddress (isWrite : Bool) (index : BitVec 6) : BitVec 7 := BitVec.ofBool isWrite ++ index

/-- R114: the strobe vector `{PANIC_EDGE, STANDBY_EDGE, TICK}`. -/
def strobeVector (panicEdge standbyEdge tick : Bool) : BitVec 3 :=
  BitVec.ofBool panicEdge ++ BitVec.ofBool standbyEdge ++ BitVec.ofBool tick

/-- What the environment drives for an instruction. -/
def encode : Instr → Signal
  | .nop => .command 0x00
  | .encodeBeacon => .command 0x01
  | .decodeBeacon => .command 0x02
  | .encodeAck => .command 0x03
  | .decodeAck => .command 0x04
  | .repackLegacy => .command 0x05
  | .getRadioId => .command 0x06
  | .getMessageId => .command 0x07
  | .beginWait => .command 0x08
  | .ackReceived => .command 0x09
  | .pollTimeout => .command 0x0A
  | .abortWait => .command 0x0B
  | .rd i => .bus (busAddress false i) 0
  | .wr i d => .bus (busAddress true i) d
  | .tick sb pn => .strobe (strobeVector pn sb true)
  | .edgeStandby pn => .strobe (strobeVector pn true false)
  | .edgePanic => .strobe (strobeVector true false false)
  | .reset => .resetLine
  | .beaconLegacy f => .wire (insertBeacon f)
  | .beaconNew f => .wire (insertBeacon f)
  | .ackLegacy rid mid => .wire (insertAckLegacy rid mid)
  | .ackNew rid res mid => .wire (insertAckNew rid res mid)

/-! ### Words as spec/opcode_table.json numbers them -/

/-- The lines that carry an instruction whose table bits are `w`, `nbits` of them, the rest zero (log 12).
Rows of 32 bits are command words. Rows of one byte are strobe vectors (1 to 7) or address phases: the table
gives the two the same numbers, since they are different lines; a byte of 128 or more is neither, and stands for
byte 0 of a beacon frame. Rows of 3 and 16 bytes are frames. -/
def signalOfTableWord (nbits w : Nat) : Signal :=
  if nbits = 0 then .resetLine
  else if nbits ≤ 8 then
    if 1 ≤ w ∧ w < 8 then .strobe (BitVec.ofNat 3 w)
    else if w < 128 then .bus (BitVec.ofNat 7 w) 0
    else .wire (leBytes 16 w)
  else if nbits ≤ 24 then .wire (leBytes 3 w)
  else if nbits ≤ 32 then .command (BitVec.ofNat 32 w)
  else if nbits ≤ 40 then .bus (BitVec.ofNat 7 w) (BitVec.ofNat 32 (w >>> 8))
  else .wire (leBytes 16 w)

/-- The instruction the decoder reads from an instruction whose table bits are `w`. -/
def decodeTableWord (nbits w : Nat) : Option Instr :=
  (decode (signalOfTableWord nbits w)).toOption

end Sys2Proof
end

