-- ==== Sys2Proof/Config.lean ====
section
/-! DEFINITION. The configuration of one instance of the block (00_scope.md R6, R7; 93_implementation_defined.md I1). -/

namespace Sys2Proof

/-- `ACK_LAYOUT` (R104, I1): the table of R104, or the replacement layout number `n`. -/
inductive AckLayout where
  | headerForm
  | replacement (n : Nat)
  deriving DecidableEq, Repr

/-- Three bytes of an ack frame, byte 0 first (R104). -/
structure AckBytes where
  first  : Byte
  second : Byte
  third  : Byte
  deriving DecidableEq, Repr

/-- A replacement ack layout, with the three properties I1 asks it to keep: decoding undoes encoding, every
pair a beacon can carry is accepted, and decode is total on three bytes (by its type). -/
structure AckCodec where
  encode : Nat → Nat → Option AckBytes
  decode : AckBytes → BitVec 15 × BitVec 15
  decode_encode : ∀ rid mid b, encode rid mid = some b →
    (decode b).1.toNat = rid ∧ (decode b).2.toNat = mid
  accepts_new_pairs : ∀ rid mid, rid < 2 ^ 7 → mid < 2 ^ 15 → (encode rid mid).isSome
  accepts_legacy_pairs : ∀ rid mid, rid < 2 ^ 15 → mid < 2 ^ 8 → (encode rid mid).isSome

/-- FREE VALUE (log 11). The replacement ack layouts an implementer may configure (I1): nothing is known of
them but the properties of `AckCodec`. A number with no layout stands for the default table. -/
opaque Config.replacementAckLayout : Nat → Option AckCodec

/-- The entries of R6, the `ACK_LAYOUT` of R104, and the OPEN parameters that no rule of the block reads. -/
structure Params where
  validPacketSize       : Nat
  ackSizeBytes          : Nat
  ackInterval           : Nat
  idleInterval          : Nat
  idleVariance          : Nat
  rangeExtenderInterval : Nat
  bsTimeoutInterval     : Nat
  supportsRelay         : Bool
  supportsMeshRouting   : Bool
  nodeRadioId           : Nat
  timeWidth             : Nat
  ackLayout             : AckLayout
  tickPeriod            : Nat
  hostBase              : Nat
  transportInitRetries  : Nat
  transportInitBackoff  : Nat
  deriving DecidableEq, Repr

/-- The constraint of R7 that a configuration breaks. `timeWidth` is the width D3 decides (log 10). -/
inductive ConfigError where
  | packetSize
  | ackSize
  | timeWidth
  | idleVariance
  | idleRange
  | ackRange
  | relayRange
  | radioId
  deriving DecidableEq, Repr

/-- The first constraint of R7 that `p` breaks, if any. -/
def Params.problem? (p : Params) : Option ConfigError :=
  if p.validPacketSize ≠ 16 then some .packetSize
  else if p.ackSizeBytes ≠ 3 then some .ackSize
  else if p.timeWidth ≠ 32 then some .timeWidth
  else if p.idleInterval < p.idleVariance then some .idleVariance
  else if 2 ^ p.timeWidth ≤ p.idleInterval + p.idleVariance then some .idleRange
  else if 2 ^ p.timeWidth ≤ p.ackInterval then some .ackRange
  else if 2 ^ p.timeWidth ≤ p.rangeExtenderInterval then some .relayRange
  else if 2 ^ 7 ≤ p.nodeRadioId then some .radioId
  else none

/-- A configuration that meets R7. The proof field makes a configuration that breaks R7 impossible to hold. -/
structure Config where
  params : Params
  ok     : params.problem? = none
  deriving DecidableEq, Repr

/-- R7: a configuration that breaks a constraint is refused, by the constraint's name. -/
def Config.ofParams (p : Params) : Except ConfigError Config :=
  match h : p.problem? with
  | none => .ok ⟨p, h⟩
  | some e => .error e

/-- R6 with the values 95_test_vectors.md takes where a vector says nothing else: `IDLE_INTERVAL = 10000`,
`SUPPORTS_RELAY = 0`, `NODE_RADIO_ID = 5` (log 9). -/
def Params.default : Params where
  validPacketSize := 16
  ackSizeBytes := 3
  ackInterval := 5000
  idleInterval := 10000
  idleVariance := 1000
  rangeExtenderInterval := 5000
  bsTimeoutInterval := 5000
  supportsRelay := false
  supportsMeshRouting := false
  nodeRadioId := 5
  timeWidth := 32
  ackLayout := .headerForm
  tickPeriod := 0
  hostBase := 0
  transportInitRetries := 0
  transportInitBackoff := 0

/-- DESIGN CHOICE (log 9). The configuration of `State.reset`. -/
def Config.default : Config := ⟨Params.default, by decide⟩

/-- R321: the bound below which the environment keeps the gap between two TICKs, in ms. -/
def Params.tickGapBound (p : Params) : Nat :=
  2 ^ 32 - max p.ackInterval (max (p.idleInterval + p.idleVariance) p.rangeExtenderInterval)

end Sys2Proof
end

