-- ==== Sys2Proof/Machine/State.lean ====
section
/-! DEFINITION. The state of the block (10_state.md), its reset value (R65), and why a step could stop. -/

namespace Sys2Proof.Machine

/-! ### The names of modes, codes and events -/

/-- `MODE` (R30): the protocol mode. -/
inductive Mode where
  | standby
  | active
  deriving DecidableEq, Repr

/-- `ASTATE` (R31): the state within ACTIVE. -/
inductive ActiveState where
  | idle
  | transmit
  | awaitAck
  | relay
  deriving DecidableEq, Repr

/-- The result codes of host commands, held in `STATUS.ERR` (R23, R300). -/
inductive ErrorCode where
  | ok
  | invalidSize
  | fieldRange
  | pendingExists
  | notLegacy
  | radioIdOverflow
  | illegalCommand
  | busy
  deriving DecidableEq, Repr

/-- The outcomes of the acknowledgment tracker, held in `STATUS.OUTCOME` (R24): NONE, MATCH, TIMEOUT. -/
inductive AckOutcome where
  | none
  | matched
  | timeout
  deriving DecidableEq, Repr

/-- The named events of R311, with their payloads. -/
inductive LogEvent where
  | rxInvalidSize (length : Nat)
  | ackMatch (radioId : Nat) (messageId : Nat)
  | ackTimeout (radioId : Nat) (messageId : Nat)
  | seqRange (battery : Byte)
  | seqPending
  | relayDrop (error : ErrorCode)
  | sendFail
  deriving DecidableEq, Repr

/-! ### The units' registers -/

/-- `STICKY` (R25): the recorded failures of the TICK path. -/
structure Sticky where
  rxInvalidSize : Bool
  seqRange      : Bool
  seqPending    : Bool
  relayDrop     : Bool
  sendFail      : Bool
  deriving DecidableEq, Repr

/-- The host port registers: the stored fields of `STATUS` (R23, R24), `FRAME_LEN` (R28), the operand bank
`F_*` (R27) and the buffer `FRAME` (R40). -/
structure HostPort where
  err        : ErrorCode
  outcome    : AckOutcome
  frameLen   : Word
  fFormat    : Word
  fRadioId   : Word
  fPanic     : Word
  fMessageId : Word
  fLatitude  : Word
  fLongitude : Word
  fBattery   : Word
  fUtc       : Word
  frame      : Buffer
  deriving DecidableEq, Repr

/-- The PendingMessage of the ACT (R41 to R44, R230). -/
structure PendingMessage where
  valid     : Bool
  radioId   : BitVec 15
  messageId : BitVec 15
  sentAt    : Word
  retry     : BitVec 8
  deriving DecidableEq, Repr

/-- The overheard buffer (R50 to R52). -/
structure Overheard where
  valid : Bool
  len   : BitVec 5
  bytes : Buffer
  deriving DecidableEq, Repr

/-- The PSS (R25, R30 to R39). -/
structure Sequencer where
  mode         : Mode
  astate       : ActiveState
  panic        : Bool
  panicPending : Bool
  reqStandby   : Bool
  reqPanic     : Bool
  idleStart    : Word
  idleDur      : Word
  relayStart   : Word
  fixLat       : Word
  fixLon       : Word
  fixUtc       : Word
  fixValid     : Bool
  msgCounter   : BitVec 15
  sticky       : Sticky
  deriving DecidableEq, Repr

/-! ### The environment -/

/-- A fix as `currentFix()` gives it (R55, R326). -/
structure GpsFix where
  lat   : Word
  lon   : Word
  utc   : Word
  valid : Bool
  deriving DecidableEq, Repr

/-- The input ports of R55, as one step samples them. The frame `tryReceive()` gives stands in
`State.rxQueue`; `routing` is the metadata of a frame that arrives in this step, which no rule reads. -/
structure Inputs where
  now          : Word
  rng          : Word
  battery      : Byte
  switchActive : Bool
  gps          : Option GpsFix
  sendOk       : Bool
  routing      : List Byte
  deriving DecidableEq, Repr

/-- One step of some agent (R80): what it drives, and what the input ports show during it. -/
structure Event where
  signal : Signal
  inputs : Inputs
  deriving DecidableEq, Repr

/-- A frame the transport has ready for `tryReceive()`, with its routing metadata (R55, R325). -/
structure RxFrame where
  bytes   : List Byte
  routing : List Byte
  deriving DecidableEq, Repr

/-- A byte sequence handed to `Send`, byte 0 first (R74), and the transport's answer (R325). -/
structure SentFrame where
  bytes : List Byte
  ok    : Bool
  deriving DecidableEq, Repr

/-- The outputs of R56 and the response words of RD (R290), each oldest first. -/
structure Outputs where
  responses : List Word
  sent      : List SentFrame
  log       : List LogEvent
  deriving DecidableEq, Repr

/-- The state. `host`, `pend`, `ovh` and `pss` are the block's registers. `cfg` is its configuration, which no
step changes (R6, R90). `inputs`, `rxQueue`, `schedule` and `out` are the model's own: the input ports, the
transport's received frames, the agents' steps still to come in their total order (R80), and the outputs. -/
structure State where
  cfg      : Config
  host     : HostPort
  pend     : PendingMessage
  ovh      : Overheard
  pss      : Sequencer
  inputs   : Inputs
  rxQueue  : List RxFrame
  schedule : List Event
  out      : Outputs
  deriving DecidableEq, Repr

/-! ### One update per part of the state -/

/-- Replace the host port registers. -/
def State.withHost (s : State) (h : HostPort) : State := { s with host := h }

/-- Replace the pending message. -/
def State.withPend (s : State) (p : PendingMessage) : State := { s with pend := p }

/-- Replace the overheard buffer. -/
def State.withOvh (s : State) (o : Overheard) : State := { s with ovh := o }

/-- Replace the sequencer's registers. -/
def State.withPss (s : State) (q : Sequencer) : State := { s with pss := q }

/-- Replace the frames the transport has ready. -/
def State.withRxQueue (s : State) (q : List RxFrame) : State := { s with rxQueue := q }

/-- Replace the outputs. -/
def State.withOut (s : State) (o : Outputs) : State := { s with out := o }

/-! ### Why a step could stop -/

/-- No reason: the block has no trap, no halt and no fatal error (60_exceptions.md R302, R305, R307;
70_reset_and_hazards.md R346), so no step raises a fault (log 17). -/
inductive Fault where
  deriving DecidableEq, Repr

/-- Why an instruction has no meaning. -/
inductive Refusal where
  /-- Raised by an arm of `exec` whose instruction has no meaning yet; no arm is such an arm. Safe. -/
  | notModelled (mnemonic : String)
  deriving DecidableEq, Repr

/-! ### Reset -/

/-- A buffer of zero bytes. -/
def Buffer.zero : Buffer := Vector.replicate 16 0

/-- R65: the host port registers after reset. -/
def HostPort.zero : HostPort where
  err := .ok
  outcome := .none
  frameLen := 0
  fFormat := 0
  fRadioId := 0
  fPanic := 0
  fMessageId := 0
  fLatitude := 0
  fLongitude := 0
  fBattery := 0
  fUtc := 0
  frame := Buffer.zero

/-- R65, R235: no pending message. -/
def PendingMessage.zero : PendingMessage where
  valid := false
  radioId := 0
  messageId := 0
  sentAt := 0
  retry := 0

/-- R65: the overheard buffer empty. -/
def Overheard.zero : Overheard where
  valid := false
  len := 0
  bytes := Buffer.zero

/-- R65: the sequencer after a reset with the standby switch in its STANDBY position. -/
def Sequencer.zero : Sequencer where
  mode := .standby
  astate := .idle
  panic := false
  panicPending := false
  reqStandby := false
  reqPanic := false
  idleStart := 0
  idleDur := 0
  relayStart := 0
  fixLat := 0
  fixLon := 0
  fixUtc := 0
  fixValid := false
  msgCounter := 0
  sticky := ⟨false, false, false, false, false⟩

/-- DESIGN CHOICE (log 8). The input ports before any step drives them. -/
def Inputs.zero : Inputs where
  now := 0
  rng := 0
  battery := 0
  switchActive := false
  gps := none
  sendOk := true
  routing := []

/-- R65 and R340 with `switch_active = 0` (DESIGN CHOICE, log 8): the block right after reset. Every other reset
is the instruction RESET with its inputs. Nothing is scheduled, received or sent. -/
def State.reset : State where
  cfg := Config.default
  host := HostPort.zero
  pend := PendingMessage.zero
  ovh := Overheard.zero
  pss := Sequencer.zero
  inputs := Inputs.zero
  rxQueue := []
  schedule := []
  out := ⟨[], [], []⟩

end Sys2Proof.Machine
end

