-- ==== Sys2Proof/Machine/Codec.lean ====
section
/-! DEFINITION. The pure functions of the PKU (40_codec.md R141 to R150, 43_legacy_adapter.md R260). -/

namespace Sys2Proof.Machine

/-- R141: the range constraints of encoding. -/
def inRange (fs : FieldSet) : Bool :=
  decide (fs.formatFlag ≤ 1) && decide (fs.panic ≤ 1) && decide (fs.batteryPercent ≤ 100) &&
    decide (fs.latitude < 2 ^ 32) && decide (fs.longitude < 2 ^ 32) &&
    decide (fs.utcTimestamp < 2 ^ 32) &&
    (if fs.formatFlag = 1 then decide (fs.radioId < 2 ^ 7) && decide (fs.messageId < 2 ^ 15)
     else decide (fs.radioId < 2 ^ 15) && decide (fs.messageId < 2 ^ 8) && decide (fs.panic = 0))

/-- R142: pack a field set, or FieldRange; never truncates. -/
def encodeBeacon (fs : FieldSet) : Except ErrorCode (List Byte) :=
  if inRange fs then .ok (insertBeacon fs) else .error .fieldRange

/-- R143, R148: unpack a byte sequence; the only failure is a length other than 16 (R153, R154). -/
def decodeBeacon (b : List Byte) : Except ErrorCode FieldSet :=
  if b.length ≠ 16 then .error .invalidSize else .ok (extractBeacon b)

/-- R149 with the layout of R104: the new form where it fits, else the legacy form. -/
def tableEncodeAck (rid mid : Nat) : Option (List Byte) :=
  if rid < 2 ^ 7 ∧ mid < 2 ^ 15 then some (insertAckNew rid false mid)
  else if rid < 2 ^ 15 ∧ mid < 2 ^ 8 then some (insertAckLegacy rid mid)
  else none

/-- R150 with the layout of R104: bit 7 of byte 0 selects the form, byte 1 bit 7 of the new form is ignored. -/
def tableDecodeAck (b : List Byte) : Nat × Nat :=
  if formatBit b = 1 then (byteAt b 0 &&& 0x7F, wideMessageId b) else (wideRadioId b, byteAt b 2)

/-- The replacement layout a configuration names, if there is one (I1, log 11). -/
def replacementCodec : AckLayout → Option AckCodec
  | .headerForm => none
  | .replacement n => Config.replacementAckLayout n

/-- The three bytes of an ack as a byte sequence. -/
def ackList (b : AckBytes) : List Byte := [b.first, b.second, b.third]

/-- The first three bytes of a byte sequence. -/
def ackBytesOf (b : List Byte) : AckBytes := ⟨b.getD 0 0, b.getD 1 0, b.getD 2 0⟩

/-- R149: pack a pair into three bytes, under the configured `ACK_LAYOUT`, or FieldRange. -/
def encodeAck (layout : AckLayout) (rid mid : Nat) : Except ErrorCode (List Byte) :=
  match replacementCodec layout with
  | none =>
    match tableEncodeAck rid mid with
    | some b => .ok b
    | none => .error .fieldRange
  | some c =>
    match c.encode rid mid with
    | some b => .ok (ackList b)
    | none => .error .fieldRange

/-- R150, R148: unpack three bytes under the configured `ACK_LAYOUT`; the only failure is the length. -/
def decodeAck (layout : AckLayout) (b : List Byte) : Except ErrorCode (Nat × Nat) :=
  if b.length ≠ 3 then .error .invalidSize
  else
    match replacementCodec layout with
    | none => .ok (tableDecodeAck b)
    | some c => .ok ((c.decode (ackBytesOf b)).1.toNat, (c.decode (ackBytesOf b)).2.toNat)

/-- R260: rewrite a legacy frame in the new layout. The checks stand in the order of R304. -/
def repackLegacy (b : List Byte) : Except ErrorCode (List Byte) :=
  if b.length ≠ 16 then .error .invalidSize
  else if formatBit b = 1 then .error .notLegacy
  else
    let fs := extractBeacon b
    if 2 ^ 7 ≤ fs.radioId then .error .radioIdOverflow
    else if 100 < fs.batteryPercent then .error .fieldRange
    else encodeBeacon { fs with formatFlag := 1, panic := 0 }

end Sys2Proof.Machine
end

