-- ==== Sys2Proof/Machine/Flags.lean ====
section
/-! DEFINITION. The codes of the status fields (R23 to R26, R30, R31, R300) and the words a host reads of them.
No operation of the block sets an arithmetic flag: it has no condition codes (R20, R380). -/

namespace Sys2Proof.Machine

/-- R300: the four-bit code of an error. -/
def ErrorCode.code : ErrorCode → BitVec 4
  | .ok => 0
  | .invalidSize => 1
  | .fieldRange => 2
  | .pendingExists => 3
  | .notLegacy => 4
  | .radioIdOverflow => 5
  | .illegalCommand => 6
  | .busy => 7

/-- R24: NONE 0, MATCH 1, TIMEOUT 2. -/
def AckOutcome.code : AckOutcome → BitVec 2
  | .none => 0
  | .matched => 1
  | .timeout => 2

/-- R30: STANDBY 0, ACTIVE 1. -/
def Mode.code : Mode → BitVec 1
  | .standby => 0
  | .active => 1

/-- R31: IDLE 0, TRANSMIT 1, AWAIT_ACK 2, RELAY 3. -/
def ActiveState.code : ActiveState → BitVec 2
  | .idle => 0
  | .transmit => 1
  | .awaitAck => 2
  | .relay => 3

/-- R183: the other mode. -/
def Mode.toggle : Mode → Mode
  | .standby => .active
  | .active => .standby

/-- R26: the word an RD of `STATUS` returns, bit 31 first. -/
def composeStatus (s : State) : Word :=
  0#18 ++ BitVec.ofBool s.pss.fixValid ++ BitVec.ofBool s.ovh.valid ++
    BitVec.ofBool s.pss.panicPending ++ BitVec.ofBool s.pss.panic ++ s.pss.astate.code ++
    s.pss.mode.code ++ BitVec.ofBool s.pend.valid ++ s.host.outcome.code ++ s.host.err.code

/-- R25: the word an RD of `STICKY` returns, bit 31 first. -/
def composeSticky (t : Sticky) : Word :=
  0#27 ++ BitVec.ofBool t.sendFail ++ BitVec.ofBool t.relayDrop ++ BitVec.ofBool t.seqPending ++
    BitVec.ofBool t.seqRange ++ BitVec.ofBool t.rxInvalidSize

/-- The status lines of R56 for the indicator sink (R328). -/
structure StatusLines where
  mode      : BitVec 1
  astate    : BitVec 2
  panic     : Bool
  pendValid : Bool
  deriving DecidableEq, Repr

/-- R56: what the block drives on its status lines. -/
def statusLines (s : State) : StatusLines where
  mode := s.pss.mode.code
  astate := s.pss.astate.code
  panic := s.pss.panic
  pendValid := s.pend.valid

end Sys2Proof.Machine
end

