-- ==== Sys2Proof/Machine/Operands.lean ====
section
/-! DEFINITION. How a step reads and writes registers and buffers (10_state.md R60; 45_host_port.md R290, R291). -/

namespace Sys2Proof.Machine

/-! ### Buffers -/

/-- Byte `k` of a buffer. -/
def bufferByte (b : Buffer) (k : Nat) : Byte := b.getD k 0

/-- Store one byte. -/
def setBufferByte (b : Buffer) (k : Nat) (v : Byte) : Buffer := b.setIfInBounds k v

/-- Store a byte sequence from offset 0; the bytes past it keep their values (R160, R162). -/
def overlay (b : Buffer) (bytes : List Byte) : Buffer := Vector.ofFn fun i => bytes.getD i b[i]

/-- The first `n` bytes of a buffer, as a byte sequence (R28, R74). -/
def bufferBytes (b : Buffer) (n : Nat) : List Byte := b.toList.take n

/-! ### The operand bank -/

/-- R160: the field registers, read as one field set. -/
def operandFields (h : HostPort) : FieldSet where
  formatFlag := h.fFormat.toNat
  radioId := h.fRadioId.toNat
  panic := h.fPanic.toNat
  messageId := h.fMessageId.toNat
  latitude := h.fLatitude.toNat
  longitude := h.fLongitude.toNat
  batteryPercent := h.fBattery.toNat
  utcTimestamp := h.fUtc.toNat

/-- R107, R161: the field registers with a field set written into them, each zero-extended. -/
def writeFields (h : HostPort) (fs : FieldSet) : HostPort :=
  { h with
    fFormat := BitVec.ofNat 32 fs.formatFlag
    fRadioId := BitVec.ofNat 32 fs.radioId
    fPanic := BitVec.ofNat 32 fs.panic
    fMessageId := BitVec.ofNat 32 fs.messageId
    fLatitude := BitVec.ofNat 32 fs.latitude
    fLongitude := BitVec.ofNat 32 fs.longitude
    fBattery := BitVec.ofNat 32 fs.batteryPercent
    fUtc := BitVec.ofNat 32 fs.utcTimestamp }

/-! ### Registers by host index -/

/-- The 32-bit registers below index 0x10 and from 0x20 to 0x2F (R60). `CMD` and reserved indices read 0. -/
def readNamed (s : State) : Nat → Word
  | 0x01 => composeStatus s
  | 0x02 => composeSticky s.pss.sticky
  | 0x03 => s.host.frameLen
  | 0x04 => s.host.fFormat
  | 0x05 => s.host.fRadioId
  | 0x06 => s.host.fPanic
  | 0x07 => s.host.fMessageId
  | 0x08 => s.host.fLatitude
  | 0x09 => s.host.fLongitude
  | 0x0A => s.host.fBattery
  | 0x0B => s.host.fUtc
  | 0x20 => s.pend.radioId.setWidth 32
  | 0x21 => s.pend.messageId.setWidth 32
  | 0x22 => s.pend.sentAt
  | 0x23 => s.pend.retry.setWidth 32
  | 0x24 => s.pss.msgCounter.setWidth 32
  | 0x25 => s.pss.idleStart
  | 0x26 => s.pss.idleDur
  | 0x27 => s.pss.relayStart
  | 0x28 => s.pss.fixLat
  | 0x29 => s.pss.fixLon
  | 0x2A => s.pss.fixUtc
  | 0x2B => s.ovh.len.setWidth 32
  | _ => 0

/-- R290: the data word of an RD. -/
def readRegister (s : State) (index : BitVec 6) : Word :=
  let k := index.toNat
  if 0x10 ≤ k ∧ k < 0x20 then (bufferByte s.host.frame (k - 0x10)).setWidth 32
  else if 0x30 ≤ k then (bufferByte s.ovh.bytes (k - 0x30)).setWidth 32
  else readNamed s k

/-- The RW 32-bit registers (R60): everything else below 0x10 ignores a write. -/
def writeNamed (h : HostPort) (d : Word) : Nat → HostPort
  | 0x03 => { h with frameLen := d }
  | 0x04 => { h with fFormat := d }
  | 0x05 => { h with fRadioId := d }
  | 0x06 => { h with fPanic := d }
  | 0x07 => { h with fMessageId := d }
  | 0x08 => { h with fLatitude := d }
  | 0x09 => { h with fLongitude := d }
  | 0x0A => { h with fBattery := d }
  | 0x0B => { h with fUtc := d }
  | _ => h

/-- R291: the host port after a WR of an index other than `CMD`. A byte register keeps `data[7:0]`; a read-only
or reserved index keeps everything. -/
def writeRegister (h : HostPort) (index : BitVec 6) (d : Word) : HostPort :=
  let k := index.toNat
  if 0x10 ≤ k ∧ k < 0x20 then
    { h with frame := setBufferByte h.frame (k - 0x10) (d.extractLsb' 0 8) }
  else writeNamed h d k

end Sys2Proof.Machine
end

