-- ==== Sys2Proof/Machine/Ops.lean ====
section
/-! DEFINITION. The named operations the meanings are made of: raising and completing (R302, R303), outputs
(R311, R325), the tracker (R231 to R235), the timers (R10, R193), the buffers (R160, R188, R190, R199). -/

namespace Sys2Proof.Machine

/-! ### The end of a host command -/

/-- R302: `raise E`. Only `STATUS.ERR` changes. This is the block's only form of an exception: there is no
vector, no saved state and so no return (R305, R306). -/
def raise (e : ErrorCode) (s : State) : State := s.withHost { s.host with err := e }

/-- R303: a command that does not raise ends with `STATUS.ERR <- 0`. -/
def complete (s : State) : State := s.withHost { s.host with err := .ok }

/-- R24: the outcome a tracker command reports. -/
def setOutcome (o : AckOutcome) (s : State) : State := s.withHost { s.host with outcome := o }

/-! ### Outputs -/

/-- R311: `emit EV_x`. -/
def emit (e : LogEvent) (s : State) : State := s.withOut { s.out with log := s.out.log ++ [e] }

/-- R290: the data word an RD returns. -/
def respond (w : Word) (s : State) : State :=
  s.withOut { s.out with responses := s.out.responses ++ [w] }

/-- R325: hand a byte sequence to the transport, which answers with the input `sendOk`. -/
def handToTransport (bytes : List Byte) (s : State) : State :=
  s.withOut { s.out with sent := s.out.sent ++ [⟨bytes, s.inputs.sendOk⟩] }

/-- R25: set bits of `STICKY`; a set bit stays set. -/
def setSticky (t : Sticky) (s : State) : State := s.withPss { s.pss with sticky := t }

/-- R197: a failed `Send` is recorded and the step goes on. -/
def noteSendFail (s : State) : State :=
  emit .sendFail (setSticky { s.pss.sticky with sendFail := true } s)

/-- `Send` with R197: hand the bytes over and record a failure. -/
def send (bytes : List Byte) (s : State) : State :=
  if s.inputs.sendOk then handToTransport bytes s else noteSendFail (handToTransport bytes s)

/-! ### Time -/

/-- R10: `elapsed(t0) = (now - t0) mod 2^32`. -/
def elapsedAt (now t0 : Word) : Nat := (now - t0).toNat

/-- R10, R320: `elapsed(t0) >= interval` at the `now` of this step. -/
def timerDue (s : State) (t0 : Word) (interval : Nat) : Bool :=
  decide (interval ≤ elapsedAt s.inputs.now t0)

/-- R193: the backoff drawn with `rng`. -/
def idleDraw (p : Params) (rng : Word) : Nat :=
  p.idleInterval - p.idleVariance + rng.toNat % (2 * p.idleVariance + 1)

/-- R193: `enterIdle()`. -/
def enterIdle (s : State) : State :=
  s.withPss { s.pss with
    astate := .idle
    idleStart := s.inputs.now
    idleDur := BitVec.ofNat 32 (idleDraw s.cfg.params s.inputs.rng) }

/-! ### The acknowledgment tracker -/

/-- R235: `clearPending()`. -/
def clearPending (s : State) : State := s.withPend PendingMessage.zero

/-- R231: `beginWait(rid, mid, t)`; the precondition is `rid, mid < 2^15` (log 19). -/
def beginWait (rid mid : Nat) (t : Word) (s : State) : Except ErrorCode State :=
  if s.pend.valid then .error .pendingExists
  else .ok (s.withPend
    { valid := true, radioId := BitVec.ofNat 15 rid, messageId := BitVec.ofNat 15 mid,
      sentAt := t, retry := 0 })

/-- R232: does the ack match the pending entry? Compared as whole unsigned integers. -/
def ackMatches (rid mid : Nat) (p : PendingMessage) : Bool :=
  p.valid && decide (rid = p.radioId.toNat) && decide (mid = p.messageId.toNat)

/-- R232: `onAckReceived(rid, mid)`. -/
def onAckReceived (rid mid : Nat) (s : State) : AckOutcome × State :=
  if ackMatches rid mid s.pend then (.matched, clearPending s) else (.none, s)

/-- R233: is the pending entry due at `t`? The boundary is inclusive. -/
def ackDue (t : Word) (s : State) : Bool :=
  s.pend.valid && decide (s.cfg.params.ackInterval ≤ elapsedAt t s.pend.sentAt)

/-- R233: `pollTimeout(t)`. -/
def pollTimeout (t : Word) (s : State) : AckOutcome × State :=
  if ackDue t s then (.timeout, clearPending s) else (.none, s)

/-- R234: `abortWait()`. -/
def abortWait (s : State) : State := clearPending s

/-- R239: an ACT command in ACTIVE raises Busy; in STANDBY it runs. -/
def whenStandby (run : State → State) (s : State) : State :=
  if s.pss.mode = .active then raise .busy s else run s

/-! ### Buffers -/

/-- R160, R162, R261: store a packed frame in `FRAME` and set `FRAME_LEN`. -/
def storeFrame (bytes : List Byte) (s : State) : State :=
  s.withHost { s.host with
    frame := overlay s.host.frame bytes
    frameLen := BitVec.ofNat 32 bytes.length }

/-- R28: the byte sequence a command reads from `FRAME`: its first `n` bytes. -/
def frameBytes (s : State) (n : Nat) : List Byte := bufferBytes s.host.frame n

/-- R184, R199: empty the overheard buffer. -/
def clearOverheard (s : State) : State := s.withOvh Overheard.zero

/-- R188, R190: keep an overheard frame, in place of an older one; the bytes past it are 0. -/
def storeOverheard (bytes : List Byte) (s : State) : State :=
  s.withOvh
    { valid := true, len := BitVec.ofNat 5 bytes.length, bytes := overlay Buffer.zero bytes }

/-- A frame arrives at the transport and waits for `tryReceive()` (R325, R358; log 4). -/
def frameArrives (bytes : List Byte) (s : State) : State :=
  s.withRxQueue (s.rxQueue ++ [⟨bytes, s.inputs.routing⟩])

end Sys2Proof.Machine
end

