-- ==== Sys2Proof/Machine/Packet.lean ====
section
/-! DEFINITION. The PKU commands (40_codec.md R160 to R163, 43_legacy_adapter.md R261, 44_basestation_accessors.md
R280, R281). Each reads its operands, checks, and then either raises one error or writes all its results. -/

namespace Sys2Proof.Machine

/-- R160. -/
def execEncodeBeacon (s : State) : Host.Outcome State Fault Refusal :=
  match encodeBeacon (operandFields s.host) with
  | .error e => .next (raise e s)
  | .ok r => .next (complete (storeFrame r s))

/-- R161. -/
def execDecodeBeacon (s : State) : Host.Outcome State Fault Refusal :=
  if s.host.frameLen ≠ 16 then .next (raise .invalidSize s)
  else
    match decodeBeacon (frameBytes s 16) with
    | .error e => .next (raise e s)
    | .ok fs => .next (complete (s.withHost (writeFields s.host fs)))

/-- R162. -/
def execEncodeAck (s : State) : Host.Outcome State Fault Refusal :=
  match encodeAck s.cfg.params.ackLayout s.host.fRadioId.toNat s.host.fMessageId.toNat with
  | .error e => .next (raise e s)
  | .ok r => .next (complete (storeFrame r s))

/-- R163. -/
def execDecodeAck (s : State) : Host.Outcome State Fault Refusal :=
  if s.host.frameLen ≠ 3 then .next (raise .invalidSize s)
  else
    match decodeAck s.cfg.params.ackLayout (frameBytes s 3) with
    | .error e => .next (raise e s)
    | .ok (rid, mid) =>
      .next (complete (s.withHost { s.host with
        fRadioId := BitVec.ofNat 32 rid
        fMessageId := BitVec.ofNat 32 mid }))

/-- R261. `FRAME_LEN` stays 16, which is the length stored. -/
def execRepackLegacy (s : State) : Host.Outcome State Fault Refusal :=
  if s.host.frameLen ≠ 16 then .next (raise .invalidSize s)
  else
    match repackLegacy (frameBytes s 16) with
    | .error e => .next (raise e s)
    | .ok r => .next (complete (storeFrame r s))

/-- R280. -/
def execGetRadioId (s : State) : Host.Outcome State Fault Refusal :=
  if s.host.frameLen ≠ 16 then .next (raise .invalidSize s)
  else
    match decodeBeacon (frameBytes s 16) with
    | .error e => .next (raise e s)
    | .ok fs => .next (complete (s.withHost { s.host with fRadioId := BitVec.ofNat 32 fs.radioId }))

/-- R281. -/
def execGetMessageId (s : State) : Host.Outcome State Fault Refusal :=
  if s.host.frameLen ≠ 16 then .next (raise .invalidSize s)
  else
    match decodeBeacon (frameBytes s 16) with
    | .error e => .next (raise e s)
    | .ok fs =>
      .next (complete (s.withHost { s.host with fMessageId := BitVec.ofNat 32 fs.messageId }))

end Sys2Proof.Machine
end

