-- ==== Sys2Proof/Machine/Tracker.lean ====
section
/-! DEFINITION. The ACT commands (42_ack_tracker.md R240 to R243). Each raises Busy in ACTIVE (R239). -/

namespace Sys2Proof.Machine

/-- R240 in STANDBY: FieldRange, then PendingExists, then the entry is opened at `now`. -/
def beginWaitCommand (s : State) : State :=
  if 2 ^ 15 ≤ s.host.fRadioId.toNat ∨ 2 ^ 15 ≤ s.host.fMessageId.toNat then raise .fieldRange s
  else
    match beginWait s.host.fRadioId.toNat s.host.fMessageId.toNat s.inputs.now s with
    | .error e => raise e s
    | .ok s' => complete (setOutcome .none s')

/-- R241 in STANDBY. -/
def ackReceivedCommand (s : State) : State :=
  let r := onAckReceived s.host.fRadioId.toNat s.host.fMessageId.toNat s
  complete (setOutcome r.1 r.2)

/-- R242 in STANDBY. -/
def pollTimeoutCommand (s : State) : State :=
  let r := pollTimeout s.inputs.now s
  complete (setOutcome r.1 r.2)

/-- R243 in STANDBY. -/
def abortWaitCommand (s : State) : State := complete (setOutcome .none (abortWait s))

/-- R240. -/
def execBeginWait (s : State) : Host.Outcome State Fault Refusal :=
  .next (whenStandby beginWaitCommand s)

/-- R241. -/
def execAckReceived (s : State) : Host.Outcome State Fault Refusal :=
  .next (whenStandby ackReceivedCommand s)

/-- R242. -/
def execPollTimeout (s : State) : Host.Outcome State Fault Refusal :=
  .next (whenStandby pollTimeoutCommand s)

/-- R243. -/
def execAbortWait (s : State) : Host.Outcome State Fault Refusal :=
  .next (whenStandby abortWaitCommand s)

end Sys2Proof.Machine
end

