-- ==== Sys2Proof/Machine/HostPort.lean ====
section
/-! DEFINITION. The host port (45_host_port.md R290 to R293). -/

namespace Sys2Proof.Machine

/-- R293. -/
def execNop (s : State) : Host.Outcome State Fault Refusal := .next (complete s)

/-- R292: run the rule of a command. -/
def runCommand (c : Command) (s : State) : Host.Outcome State Fault Refusal :=
  match c with
  | .nop => execNop s
  | .encodeBeacon => execEncodeBeacon s
  | .decodeBeacon => execDecodeBeacon s
  | .encodeAck => execEncodeAck s
  | .decodeAck => execDecodeAck s
  | .repackLegacy => execRepackLegacy s
  | .getRadioId => execGetRadioId s
  | .getMessageId => execGetMessageId s
  | .beginWait => execBeginWait s
  | .ackReceived => execAckReceived s
  | .pollTimeout => execPollTimeout s
  | .abortWait => execAbortWait s

/-- R292: `issue(d)`. -/
def issue (d : Word) (s : State) : Host.Outcome State Fault Refusal :=
  match decodeCommand d with
  | some c => runCommand c s
  | none => .next (raise .illegalCommand s)

/-- R290: the register's value is returned and no state of the block changes. -/
def execRd (index : BitVec 6) (s : State) : Host.Outcome State Fault Refusal :=
  .next (respond (readRegister s index) s)

/-- R291: a WR of `CMD` issues a command, every other WR stores or is ignored. -/
def execWr (index : BitVec 6) (data : Word) (s : State) : Host.Outcome State Fault Refusal :=
  if index = 0 then issue data s else .next (s.withHost (writeRegister s.host index data))

end Sys2Proof.Machine
end

