-- ==== Sys2Proof/Machine/ResetLine.lean ====
section
/-! DEFINITION. RESET (70_reset_and_hazards.md R340). -/

namespace Sys2Proof.Machine

/-- R340: every register, flag and byte of the block to 0. The configuration and what lies outside the block
(the transport's frames, the steps to come, the outputs already made) are not the block's state (log 6). -/
def clearBlock (s : State) : State :=
  (((s.withHost HostPort.zero).withPend PendingMessage.zero).withOvh Overheard.zero).withPss
    Sequencer.zero

/-- R340: the mode is the switch's, and the timers start if that is ACTIVE. -/
def execReset (s : State) : Host.Outcome State Fault Refusal :=
  if s.inputs.switchActive then
    let t := clearBlock s
    let u := enterIdle (t.withPss { t.pss with mode := .active })
    .next (u.withPss { u.pss with relayStart := u.inputs.now })
  else .next (clearBlock s)

end Sys2Proof.Machine
end

