-- ==== Sys2Proof/Machine/Sequencer.lean ====
section
/-! DEFINITION. The protocol state sequencer (41_sequencer.md): the TICK, its six phases and the edge strobes. -/

namespace Sys2Proof.Machine

/-! ### Edges -/

/-- R210: `x[REQ_STANDBY] <- 1`, where the edge bit is set. -/
def latchStandbyEdge (edge : Bool) (s : State) : State :=
  s.withPss { s.pss with reqStandby := s.pss.reqStandby || edge }

/-- R211: `x[REQ_PANIC] <- 1`, where the edge bit is set. -/
def latchPanicEdge (edge : Bool) (s : State) : State :=
  s.withPss { s.pss with reqPanic := s.pss.reqPanic || edge }

/-! ### Phases 1 to 4 -/

/-- R182: the drain clears both request flags; their old values are the tick's `s` and `p`. -/
def drainRequests (s : State) : State :=
  s.withPss { s.pss with reqStandby := false, reqPanic := false }

/-- R184: `enterStandby()`. -/
def enterStandby (s : State) : State :=
  let t := clearOverheard (abortWait s)
  t.withPss { t.pss with astate := .idle }

/-- R184: `enterActive()`. -/
def enterActive (s : State) : State :=
  let t := enterIdle (abortWait s)
  t.withPss { t.pss with relayStart := t.inputs.now }

/-- R183: the standby toggle. -/
def standbyPhase (toggle : Bool) (s : State) : State :=
  if toggle then
    let t := s.withPss { s.pss with mode := s.pss.mode.toggle }
    if t.pss.mode = .active then enterActive t else enterStandby t
  else s

/-- R185: the panic toggle; a toggle to 1 is a panic-asserted edge. -/
def panicPhase (toggle : Bool) (s : State) : State :=
  if toggle then
    s.withPss { s.pss with
      panic := !s.pss.panic
      panicPending := s.pss.panicPending || !s.pss.panic }
  else s

/-- R186: latch a valid fix. -/
def gpsPhase (s : State) : State :=
  match s.inputs.gps with
  | some f =>
    if f.valid then
      s.withPss { s.pss with fixLat := f.lat, fixLon := f.lon, fixUtc := f.utc, fixValid := true }
    else s
  | none => s

/-! ### Phase 5: receive -/

/-- R188: a received beacon. -/
def rxBeacon (bytes : List Byte) (s : State) : State :=
  if s.cfg.params.supportsRelay then storeOverheard bytes s else s

/-- R190: a received ack. -/
def rxAck (bytes : List Byte) (s : State) : State :=
  match decodeAck s.cfg.params.ackLayout bytes with
  | .error _ => s
  | .ok (rid, mid) =>
    let r := onAckReceived rid mid s
    if r.1 = .matched then emit (.ackMatch rid mid) r.2
    else if s.cfg.params.supportsRelay then storeOverheard bytes r.2
    else r.2

/-- R189: a received frame of invalid length. -/
def rxInvalid (length : Nat) (s : State) : State :=
  emit (.rxInvalidSize length) (setSticky { s.pss.sticky with rxInvalidSize := true } s)

/-- R187: a taken frame, by its length; in STANDBY it is discarded unexamined. -/
def takeFrame (bytes : List Byte) (s : State) : State :=
  if s.pss.mode = .standby then s
  else if bytes.length = 16 then rxBeacon bytes s
  else if bytes.length = 3 then rxAck bytes s
  else rxInvalid bytes.length s

/-- R187, R358: `tryReceive()` takes at most one frame from the transport. -/
def receivePhase (s : State) : State :=
  match s.rxQueue with
  | [] => s
  | f :: rest => takeFrame f.bytes (s.withRxQueue rest)

/-! ### Phase 6: the state step -/

/-- R11: `state <- S`. -/
def setActiveState (a : ActiveState) (s : State) : State := s.withPss { s.pss with astate := a }

/-- R194. -/
def stepIdle (s : State) : State :=
  if s.pss.panicPending then
    s.withPss { s.pss with panicPending := false, astate := .transmit }
  else if timerDue s s.pss.idleStart s.pss.idleDur.toNat then setActiveState .transmit s
  else if s.cfg.params.supportsRelay &&
      timerDue s s.pss.relayStart s.cfg.params.rangeExtenderInterval then setActiveState .relay s
  else s

/-- R195: the field set of a beacon the node transmits: always the new format. -/
def beaconFields (s : State) : FieldSet where
  formatFlag := 1
  radioId := s.cfg.params.nodeRadioId
  panic := s.pss.panic.toNat
  messageId := s.pss.msgCounter.toNat
  latitude := s.pss.fixLat.toNat
  longitude := s.pss.fixLon.toNat
  batteryPercent := s.inputs.battery.toNat
  utcTimestamp := s.pss.fixUtc.toNat

/-- R196: `failTransmit()`. -/
def failTransmit (s : State) : State :=
  enterIdle (emit (.seqRange s.inputs.battery)
    (setSticky { s.pss.sticky with seqRange := true } s))

/-- R195: the wait for the ack begins; a wait already pending is recorded. -/
def startWait (s : State) : State :=
  match beginWait s.cfg.params.nodeRadioId s.pss.msgCounter.toNat s.inputs.now s with
  | .ok s' => s'
  | .error _ => emit .seqPending (setSticky { s.pss.sticky with seqPending := true } s)

/-- R195: the counter moves on, modulo 2^15, and the state is AWAIT_ACK. -/
def finishTransmit (s : State) : State :=
  s.withPss { s.pss with msgCounter := s.pss.msgCounter + 1, astate := .awaitAck }

/-- R195. -/
def stepTransmit (s : State) : State :=
  match encodeBeacon (beaconFields s) with
  | .error _ => failTransmit s
  | .ok r => finishTransmit (startWait (send r s))

/-- R198. -/
def stepAwaitAck (s : State) : State :=
  if s.pend.valid then
    let r := pollTimeout s.inputs.now s
    if r.1 = .timeout then
      enterIdle (emit (.ackTimeout s.pend.radioId.toNat s.pend.messageId.toNat) r.2)
    else r.2
  else enterIdle s

/-- R199: the frame RELAY forwards: a legacy beacon repacked, anything else unchanged. -/
def relayFrame (o : Overheard) : Except ErrorCode (List Byte) :=
  let f := bufferBytes o.bytes o.len.toNat
  if o.len = 16 ∧ formatBit f = 0 then repackLegacy f else .ok f

/-- R199: send the forwarded frame, or drop a frame that cannot be repacked; the buffer is empty after. -/
def forwardOverheard (s : State) : State :=
  if s.ovh.valid then
    match relayFrame s.ovh with
    | .ok r => clearOverheard (send r s)
    | .error e =>
      clearOverheard (emit (.relayDrop e) (setSticky { s.pss.sticky with relayDrop := true } s))
  else s

/-- R199: the relay interval restarts and IDLE resumes, without a new draw. -/
def stepRelay (s : State) : State :=
  let t := forwardOverheard s
  t.withPss { t.pss with relayStart := t.inputs.now, astate := .idle }

/-- R191. -/
def stepPhase (s : State) : State :=
  match s.pss.astate with
  | .idle => stepIdle s
  | .transmit => stepTransmit s
  | .awaitAck => stepAwaitAck s
  | .relay => stepRelay s

/-! ### The TICK and the strobes -/

/-- The state after phases 1 to 5 (R181). -/
def ticksUpToReceive (s : State) : State :=
  receivePhase (gpsPhase (panicPhase s.pss.reqPanic (standbyPhase s.pss.reqStandby (drainRequests s))))

/-- R181: one pass of the control loop. Phase 6 runs in ACTIVE, in a tick that did not toggle `MODE`. -/
def tick (s : State) : State :=
  let t := ticksUpToReceive s
  if t.pss.mode = .active ∧ s.pss.reqStandby = false then stepPhase t else t

/-- R181, R212: the edges of the vector set their flags first, and the same TICK drains them. DESIGN CHOICE (log 23):
R3 names no configuration that is the base-station variant, so a TICK runs the PSS in every configuration. -/
def execTick (standbyEdge panicEdge : Bool) (s : State) : Host.Outcome State Fault Refusal :=
  .next (tick (latchPanicEdge panicEdge (latchStandbyEdge standbyEdge s)))

/-- R210; a panic edge in the same vector is latched too (R114). -/
def execEdgeStandby (panicEdge : Bool) (s : State) : Host.Outcome State Fault Refusal :=
  .next (latchPanicEdge panicEdge (latchStandbyEdge true s))

/-- R211. -/
def execEdgePanic (s : State) : Host.Outcome State Fault Refusal := .next (latchPanicEdge true s)

end Sys2Proof.Machine
end

