-- ==== Sys2Proof/Machine/Wire.lean ====
section
/-! DEFINITION. The wire frame forms (30_encoding.md R101, R102, R104). A frame form is the arrival, at the radio
transport, of a frame with these fields: the bytes wait for the `tryReceive()` of a later TICK (R187, R325, R358;
logs 4, 5). The block itself does not move: it has no step for an arrival (R12). -/

namespace Sys2Proof.Machine

/-- R101. -/
def execBeaconLegacy (fields : FieldSet) (s : State) : Host.Outcome State Fault Refusal :=
  .next (frameArrives (insertBeacon fields) s)

/-- R102. -/
def execBeaconNew (fields : FieldSet) (s : State) : Host.Outcome State Fault Refusal :=
  .next (frameArrives (insertBeacon fields) s)

/-- R104, legacy form. -/
def execAckLegacy (radioId messageId : Nat) (s : State) : Host.Outcome State Fault Refusal :=
  .next (frameArrives (insertAckLegacy radioId messageId) s)

/-- R104, new form. -/
def execAckNew (radioId : Nat) (reserved : Bool) (messageId : Nat) (s : State) :
    Host.Outcome State Fault Refusal :=
  .next (frameArrives (insertAckNew radioId reserved messageId) s)

end Sys2Proof.Machine
end

