-- ==== Sys2Proof/Machine/Dispatch.lean ====
section
/-! DEFINITION. One arm per instruction, each one call of its meaning. -/

namespace Sys2Proof.Machine

def exec (i : Instr) (s : State) : Host.Outcome State Fault Refusal :=
  match i with
  | .nop => Sys2Proof.Machine.execNop s
  | .encodeBeacon => Sys2Proof.Machine.execEncodeBeacon s
  | .decodeBeacon => Sys2Proof.Machine.execDecodeBeacon s
  | .encodeAck => Sys2Proof.Machine.execEncodeAck s
  | .decodeAck => Sys2Proof.Machine.execDecodeAck s
  | .repackLegacy => Sys2Proof.Machine.execRepackLegacy s
  | .getRadioId => Sys2Proof.Machine.execGetRadioId s
  | .getMessageId => Sys2Proof.Machine.execGetMessageId s
  | .beginWait => Sys2Proof.Machine.execBeginWait s
  | .ackReceived => Sys2Proof.Machine.execAckReceived s
  | .pollTimeout => Sys2Proof.Machine.execPollTimeout s
  | .abortWait => Sys2Proof.Machine.execAbortWait s
  | .rd index => Sys2Proof.Machine.execRd index s
  | .wr index data => Sys2Proof.Machine.execWr index data s
  | .tick standbyEdge panicEdge => Sys2Proof.Machine.execTick standbyEdge panicEdge s
  | .edgeStandby panicEdge => Sys2Proof.Machine.execEdgeStandby panicEdge s
  | .edgePanic => Sys2Proof.Machine.execEdgePanic s
  | .reset => Sys2Proof.Machine.execReset s
  | .beaconLegacy fields => Sys2Proof.Machine.execBeaconLegacy fields s
  | .beaconNew fields => Sys2Proof.Machine.execBeaconNew fields s
  | .ackLegacy radioId messageId => Sys2Proof.Machine.execAckLegacy radioId messageId s
  | .ackNew radioId reserved messageId => Sys2Proof.Machine.execAckNew radioId reserved messageId s

end Sys2Proof.Machine
end

