-- ==== Sys2Proof/Machine/Fetch.lean ====
section
/-! DEFINITION. Which agent's step comes next (20_memory.md R80), and what the block does with a signal that is
no row of the opcode table. -/

namespace Sys2Proof.Machine

/-- The next step of the total order, if any agent still acts: its signal, and the state with the step taken
off the schedule and its input ports sampled (R55, log 1). -/
def fetch (s : State) : Option (Signal × State) :=
  match s.schedule with
  | [] => none
  | ev :: rest => some (ev.signal, { s with schedule := rest, inputs := ev.inputs })

/-- An illegal command word raises IllegalCommand (R110, R292). A strobe vector with no bit set is no step of
any agent. A frame of a length no row has still arrives at the transport (R108, R189). -/
def takeUndecoded (e : DecodeError) (s : State) : State :=
  match e with
  | .illegalCommand _ => raise .illegalCommand s
  | .emptyStrobe => s
  | .frameLength bytes => frameArrives bytes s

/-- `s` with a signal put in front of the schedule, under the input ports as they are. -/
def scheduleFirst (sig : Signal) (s : State) : State :=
  { s with schedule := ⟨sig, s.inputs⟩ :: s.schedule }

end Sys2Proof.Machine
end

