-- ==== Sys2Proof/Machine/Step.lean ====
section
/-! DEFINITION. One atomic step of the block (00_scope.md R12, 20_memory.md R79, R80). -/

namespace Sys2Proof.Machine

/-- The next step of the schedule runs. With no step scheduled no agent acts, and the block stays as it is
(DESIGN CHOICE, log 2). -/
def step (s : State) : Host.Outcome State Fault Refusal :=
  match fetch s with
  | none => .next s
  | some (sig, t) =>
    match decode sig with
    | .ok i => exec i t
    | .error e => .next (takeUndecoded e t)

/-- `s` with the instruction of a table word as the very next step: the environment drives it on its lines,
under the input ports as they stand (log 1). -/
def State.withFetchWord (s : State) (nbits w : Nat) : State :=
  scheduleFirst (signalOfTableWord nbits w) s

end Sys2Proof.Machine
end

