-- ==== Sys2Proof/Safety.lean ====
section
/-! DEFINITION. What counts as a safe state of the block, in the terms claims use. -/

namespace Sys2Proof.Machine

/-- R31, R184, R187: in STANDBY, `ASTATE` is IDLE and no overheard frame is kept. -/
def StandbyQuiet (s : State) : Prop :=
  s.pss.mode = .standby → s.pss.astate = .idle ∧ s.ovh = Overheard.zero

/-- R201: in ACTIVE, a message is pending exactly while the PSS awaits its ack. -/
def SingleOutstanding (s : State) : Prop :=
  s.pss.mode = .active → (s.pend.valid = true ↔ s.pss.astate = .awaitAck)

/-- R42 to R44: with no pending message its registers are 0, and `PEND_RETRY` is always 0. -/
def PendingClean (s : State) : Prop :=
  (s.pend.valid = false → s.pend = PendingMessage.zero) ∧ s.pend.retry = 0

/-- R203: without `SUPPORTS_RELAY`, RELAY is not entered and no frame is kept. -/
def RelayGated (s : State) : Prop :=
  s.cfg.params.supportsRelay = false → s.pss.astate ≠ .relay ∧ s.ovh = Overheard.zero

/-- R51, R52: the overheard buffer is empty and zero, or holds 16 or 3 bytes with zeros past them. -/
def OverheardShaped (s : State) : Prop :=
  (s.ovh.valid = false → s.ovh = Overheard.zero) ∧
    (s.ovh.valid = true → (s.ovh.len = 16 ∨ s.ovh.len = 3) ∧
      ∀ k, s.ovh.len.toNat ≤ k → bufferByte s.ovh.bytes k = 0)

/-- R35: `d` lies in the closed backoff window. -/
def InIdleWindow (p : Params) (d : Nat) : Prop :=
  p.idleInterval - p.idleVariance ≤ d ∧ d ≤ p.idleInterval + p.idleVariance

/-- R35: `IDLE_DUR` lies in the window in ACTIVE, and in STANDBY too once it has been drawn. -/
def IdleDurDrawn (s : State) : Prop :=
  (s.pss.mode = .active → InIdleWindow s.cfg.params s.pss.idleDur.toNat) ∧
    (InIdleWindow s.cfg.params s.pss.idleDur.toNat ∨ (s.pss.idleDur = 0 ∧ s.pss.idleStart = 0))

/-- R37, R38, R326: before the first valid fix the latched fix is (0, 0, 0). -/
def FixBeforeValid (s : State) : Prop :=
  s.pss.fixValid = false → s.pss.fixLat = 0 ∧ s.pss.fixLon = 0 ∧ s.pss.fixUtc = 0

/-- R201: `STICKY.SEQ_PENDING` stays 0. -/
def SeqPendingClear (s : State) : Prop := s.pss.sticky.seqPending = false

/-- What every state of a run from reset has. -/
structure Safe (s : State) : Prop where
  standbyQuiet      : StandbyQuiet s
  singleOutstanding : SingleOutstanding s
  pendingClean      : PendingClean s
  relayGated        : RelayGated s
  overheardShaped   : OverheardShaped s
  idleDurDrawn      : IdleDurDrawn s
  fixBeforeValid    : FixBeforeValid s
  seqPendingClear   : SeqPendingClear s

/-- R180: the transitions of (`MODE`, `ASTATE`), and staying in place. -/
def allowedTransition (supportsRelay : Bool) : Mode × ActiveState → Mode × ActiveState → Bool
  | (.standby, .idle), (.active, .idle) => true
  | (.active, _), (.standby, .idle) => true
  | (.active, .idle), (.active, .transmit) => true
  | (.active, .transmit), (.active, .awaitAck) => true
  | (.active, .transmit), (.active, .idle) => true
  | (.active, .awaitAck), (.active, .idle) => true
  | (.active, .idle), (.active, .relay) => supportsRelay
  | (.active, .relay), (.active, .idle) => supportsRelay
  | (.standby, .idle), (.standby, .idle) => true
  | (.active, .idle), (.active, .idle) => true
  | (.active, .awaitAck), (.active, .awaitAck) => true
  | _, _ => false

/-- R301: the errors a command can leave in `STATUS.ERR`. -/
def possibleErrors : Command → List ErrorCode
  | .nop => []
  | .encodeBeacon => [.fieldRange]
  | .decodeBeacon => [.invalidSize]
  | .encodeAck => [.fieldRange]
  | .decodeAck => [.invalidSize]
  | .repackLegacy => [.invalidSize, .notLegacy, .radioIdOverflow, .fieldRange]
  | .getRadioId => [.invalidSize]
  | .getMessageId => [.invalidSize]
  | .beginWait => [.busy, .fieldRange, .pendingExists]
  | .ackReceived => [.busy]
  | .pollTimeout => [.busy]
  | .abortWait => [.busy]

/-- R294: the commands of the ACT. -/
def isTracker : Command → Bool
  | .beginWait => true
  | .ackReceived => true
  | .pollTimeout => true
  | .abortWait => true
  | _ => false

/-- R55: the state with every routing metadata taken away. -/
def eraseRouting (s : State) : State :=
  { s with
    inputs := { s.inputs with routing := [] }
    rxQueue := s.rxQueue.map fun f => { f with routing := [] }
    schedule := s.schedule.map fun e => { e with inputs := { e.inputs with routing := [] } } }

end Sys2Proof.Machine
end

