-- ==== Sys2Proof/Certificates/Slice0/Obligations.lean ====
section
/-! DEFINITION. The statements for the provers, and the plain descriptions they are written in. The descriptions say
what the rules of spec/ say, bit by bit, and do not call the functions the meanings are made of. -/

namespace Sys2Proof.Claims

open Sys2Proof.Machine

/-! ### Frames, bit by bit (R101 to R104) -/

/-- R72, R103: bytes 3..15 of a beacon frame, least significant byte of each 32-bit field first. -/
def tailBytes (lat lon : Word) (battery : Byte) (utc : Word) : List Byte :=
  [lat.extractLsb' 0 8, lat.extractLsb' 8 8, lat.extractLsb' 16 8, lat.extractLsb' 24 8,
   lon.extractLsb' 0 8, lon.extractLsb' 8 8, lon.extractLsb' 16 8, lon.extractLsb' 24 8,
   battery,
   utc.extractLsb' 0 8, utc.extractLsb' 8 8, utc.extractLsb' 16 8, utc.extractLsb' 24 8]

/-- R102: bytes 0..2 of a new-format frame. -/
def newHeader (rid : BitVec 7) (bit : Bool) (mid : BitVec 15) : List Byte :=
  [1#1 ++ rid, BitVec.ofBool bit ++ mid.extractLsb' 8 7, mid.extractLsb' 0 8]

/-- R101: bytes 0..2 of a legacy frame. -/
def legacyHeader (rid : BitVec 15) (mid : Byte) : List Byte :=
  [0#1 ++ rid.extractLsb' 8 7, rid.extractLsb' 0 8, mid]

/-- A buffer holding sixteen bytes, or a shorter sequence with zeros past it (R52). -/
def padded (b : List Byte) : Buffer := Vector.ofFn fun i => b.getD i 0

/-- A buffer whose first three bytes are replaced (R162). -/
def headReplaced (old : Buffer) (b : List Byte) : Buffer :=
  Vector.ofFn fun i => if i.val < 3 then b.getD i 0 else old[i]

/-- R72: the little-endian word at offset `o` of a buffer. -/
def wordAt (b : Buffer) (o : Nat) (h : o + 3 < 16) : Word :=
  b[o + 3] ++ b[o + 2] ++ b[o + 1] ++ b[o]

/-- R141 for the field registers, new format. -/
def NewInRange (h : HostPort) : Prop :=
  h.fFormat = 1 ∧ h.fRadioId.toNat < 128 ∧ h.fPanic.toNat ≤ 1 ∧ h.fMessageId.toNat < 32768 ∧
    h.fBattery.toNat ≤ 100

/-- R141 for the field registers, legacy format. -/
def LegacyInRange (h : HostPort) : Prop :=
  h.fFormat = 0 ∧ h.fRadioId.toNat < 32768 ∧ h.fPanic = 0 ∧ h.fMessageId.toNat < 256 ∧
    h.fBattery.toNat ≤ 100

/-- R262: a legacy frame that repacks: its `radioId` is below 128 and its battery at most 100. -/
def Repackable (b : Buffer) : Prop := b[0] = 0 ∧ b[1].toNat < 128 ∧ b[11].toNat ≤ 100

/-- R262: the repacked frame. -/
def repacked (b : Buffer) : Buffer :=
  (b.set 0 (1#1 ++ b[1].extractLsb' 0 7)).set 1 0

/-- R302: the state a raise leaves. -/
def raised (e : ErrorCode) (s : State) : State := { s with host := { s.host with err := e } }

/-! ### The register map (R26, R60) -/

/-- R300: the number of an error code. -/
def errNumber : ErrorCode → Nat
  | .ok => 0
  | .invalidSize => 1
  | .fieldRange => 2
  | .pendingExists => 3
  | .notLegacy => 4
  | .radioIdOverflow => 5
  | .illegalCommand => 6
  | .busy => 7

/-- R24: the number of an outcome. -/
def outcomeNumber : AckOutcome → Nat
  | .none => 0
  | .matched => 1
  | .timeout => 2

/-- R31: the number of an active state. -/
def astateNumber : ActiveState → Nat
  | .idle => 0
  | .transmit => 1
  | .awaitAck => 2
  | .relay => 3

/-- R30: the number of a mode. -/
def modeNumber : Mode → Nat
  | .standby => 0
  | .active => 1

/-- R26: `STATUS` as a sum of its fields. -/
def statusWord (s : State) : Word :=
  BitVec.ofNat 32 (errNumber s.host.err + 2 ^ 4 * outcomeNumber s.host.outcome +
    2 ^ 6 * s.pend.valid.toNat + 2 ^ 7 * modeNumber s.pss.mode + 2 ^ 8 * astateNumber s.pss.astate +
    2 ^ 10 * s.pss.panic.toNat + 2 ^ 11 * s.pss.panicPending.toNat + 2 ^ 12 * s.ovh.valid.toNat +
    2 ^ 13 * s.pss.fixValid.toNat)

/-- R25: `STICKY` as a sum of its bits. -/
def stickyWord (t : Sticky) : Word :=
  BitVec.ofNat 32 (t.rxInvalidSize.toNat + 2 * t.seqRange.toNat + 4 * t.seqPending.toNat +
    8 * t.relayDrop.toNat + 16 * t.sendFail.toNat)

/-- R60: what the sixty-four indices read, in order. -/
def registerWords (s : State) : List Word :=
  [0, statusWord s, stickyWord s.pss.sticky, s.host.frameLen, s.host.fFormat, s.host.fRadioId,
    s.host.fPanic, s.host.fMessageId, s.host.fLatitude, s.host.fLongitude, s.host.fBattery,
    s.host.fUtc, 0, 0, 0, 0] ++
  s.host.frame.toList.map (BitVec.setWidth 32) ++
  [s.pend.radioId.setWidth 32, s.pend.messageId.setWidth 32, s.pend.sentAt,
    s.pend.retry.setWidth 32, s.pss.msgCounter.setWidth 32, s.pss.idleStart, s.pss.idleDur,
    s.pss.relayStart, s.pss.fixLat, s.pss.fixLon, s.pss.fixUtc, s.ovh.len.setWidth 32, 0, 0, 0, 0] ++
  s.ovh.bytes.toList.map (BitVec.setWidth 32)

/-- R111: the opcode map. -/
def commandNumber : Command → Nat
  | .nop => 0
  | .encodeBeacon => 1
  | .decodeBeacon => 2
  | .encodeAck => 3
  | .decodeAck => 4
  | .repackLegacy => 5
  | .getRadioId => 6
  | .getMessageId => 7
  | .beginWait => 8
  | .ackReceived => 9
  | .pollTimeout => 10
  | .abortWait => 11

/-! ### What a TICK starts from (R182 to R190) -/

/-- R182, R212: does this tick drain a standby request? -/
def toggles (sb : Bool) (s : State) : Bool := s.pss.reqStandby || sb

/-- R182, R212: does this tick drain a panic request? -/
def togglesPanic (pn : Bool) (s : State) : Bool := s.pss.reqPanic || pn

/-- R186: the sequencer with a valid fix latched. -/
def withFix (g : Option GpsFix) (q : Sequencer) : Sequencer :=
  match g with
  | none => q
  | some f =>
    if f.valid then { q with fixLat := f.lat, fixLon := f.lon, fixUtc := f.utc, fixValid := true } else q

/-- R182, R185, R186: the sequencer after the drain, the panic toggle and the GPS poll. -/
def polled (pn : Bool) (s : State) : Sequencer :=
  { withFix s.inputs.gps s.pss with
    reqStandby := false
    reqPanic := false
    panic := s.pss.panic ^^ togglesPanic pn s
    panicPending := s.pss.panicPending || (togglesPanic pn s && !s.pss.panic) }

/-- R187: the bytes `tryReceive()` gives, if any. -/
def received? (s : State) : Option (List Byte) := s.rxQueue.head?.map fun f => f.bytes

/-- R232: do these bytes, a received ack, match the pending entry? -/
def acksPending (s : State) (b : List Byte) : Bool :=
  decide (b.length = 3) && s.pend.valid &&
    decide (decodeAck s.cfg.params.ackLayout b =
      .ok (s.pend.radioId.toNat, s.pend.messageId.toNat))

/-- R187 to R190: what receiving the bytes `b` in ACTIVE does. -/
def afterReceiving (b : List Byte) (s : State) : State :=
  if acksPending s b then
    { s with
      pend := PendingMessage.zero
      out := { s.out with
        log := s.out.log ++ [.ackMatch s.pend.radioId.toNat s.pend.messageId.toNat] } }
  else if b.length = 16 ∨ b.length = 3 then
    if s.cfg.params.supportsRelay then
      { s with ovh := { valid := true, len := BitVec.ofNat 5 b.length, bytes := padded b } }
    else s
  else
    { s with
      pss := { s.pss with sticky := { s.pss.sticky with rxInvalidSize := true } }
      out := { s.out with log := s.out.log ++ [.rxInvalidSize b.length] } }

/-- R182 to R190: the state phase 6 starts from, in ACTIVE, in a tick that does not toggle `MODE`. -/
def beforeStep (pn : Bool) (s : State) : State :=
  let t := { s with pss := polled pn s, rxQueue := s.rxQueue.tail }
  match received? s with
  | none => t
  | some b => afterReceiving b t

/-- R193: IDLE entered, with a new draw. -/
def idleEntered (s : State) : State :=
  { s with pss := { s.pss with
      astate := .idle
      idleStart := s.inputs.now
      idleDur := BitVec.ofNat 32 (s.cfg.params.idleInterval - s.cfg.params.idleVariance +
        s.inputs.rng.toNat % (2 * s.cfg.params.idleVariance + 1)) } }

/-- R197, R325: bytes handed to `Send`; a failure is recorded and logged. -/
def handed (b : List Byte) (s : State) : State :=
  { s with
    pss := { s.pss with
      sticky := { s.pss.sticky with sendFail := s.pss.sticky.sendFail || !s.inputs.sendOk } }
    out := { s.out with
      sent := s.out.sent ++ [⟨b, s.inputs.sendOk⟩]
      log := if s.inputs.sendOk then s.out.log else s.out.log ++ [.sendFail] } }

/-- R195: the sixteen bytes of the node's own beacon. -/
def ownBeacon (s : State) : List Byte :=
  newHeader (BitVec.ofNat 7 s.cfg.params.nodeRadioId) s.pss.panic s.pss.msgCounter ++
    tailBytes s.pss.fixLat s.pss.fixLon s.inputs.battery s.pss.fixUtc

/-- R10: `elapsed(t0) >= interval` at this step's `now`. -/
def Due (s : State) (t0 : Word) (interval : Nat) : Prop := interval ≤ (s.inputs.now - t0).toNat

/-- A tick that runs phase 6: in ACTIVE, with no standby request to drain (R181, R183). -/
def Steps (sb : Bool) (s : State) : Prop := s.pss.mode = .active ∧ toggles sb s = false

end Sys2Proof.Claims

open Sys2Proof Sys2Proof.Machine Sys2Proof.Claims

/-! ### Packet codec commands -/

/-- R160: ENCODE_BEACON packs the field registers into `FRAME` and sets `FRAME_LEN`, or raises FieldRange. -/
def Obligations.EncodeBeaconPacksFields : Prop :=
  ∀ s : State,
    (NewInRange s.host → exec .encodeBeacon s = .next { s with host := { s.host with
      frame := padded (newHeader (s.host.fRadioId.setWidth 7) (s.host.fPanic.getLsbD 0)
        (s.host.fMessageId.setWidth 15) ++ tailBytes s.host.fLatitude s.host.fLongitude
        (s.host.fBattery.setWidth 8) s.host.fUtc)
      frameLen := 16
      err := .ok } }) ∧
    (LegacyInRange s.host → exec .encodeBeacon s = .next { s with host := { s.host with
      frame := padded (legacyHeader (s.host.fRadioId.setWidth 15) (s.host.fMessageId.setWidth 8) ++
        tailBytes s.host.fLatitude s.host.fLongitude (s.host.fBattery.setWidth 8) s.host.fUtc)
      frameLen := 16
      err := .ok } }) ∧
    (¬NewInRange s.host → ¬LegacyInRange s.host →
      exec .encodeBeacon s = .next (raised .fieldRange s))

/-- R161: DECODE_BEACON unpacks `FRAME` by the layout its bit 7 selects, or raises InvalidSize. -/
def Obligations.DecodeBeaconUnpacksFrame : Prop :=
  ∀ s : State,
    (s.host.frameLen = 16 → s.host.frame[0].getLsbD 7 = true →
      exec .decodeBeacon s = .next { s with host := { s.host with
        fFormat := 1
        fRadioId := (s.host.frame[0].extractLsb' 0 7).setWidth 32
        fPanic := (s.host.frame[1].extractLsb' 7 1).setWidth 32
        fMessageId := (s.host.frame[1].extractLsb' 0 7 ++ s.host.frame[2]).setWidth 32
        fLatitude := wordAt s.host.frame 3 (by decide)
        fLongitude := wordAt s.host.frame 7 (by decide)
        fBattery := s.host.frame[11].setWidth 32
        fUtc := wordAt s.host.frame 12 (by decide)
        err := .ok } }) ∧
    (s.host.frameLen = 16 → s.host.frame[0].getLsbD 7 = false →
      exec .decodeBeacon s = .next { s with host := { s.host with
        fFormat := 0
        fRadioId := (s.host.frame[0].extractLsb' 0 7 ++ s.host.frame[1]).setWidth 32
        fPanic := 0
        fMessageId := s.host.frame[2].setWidth 32
        fLatitude := wordAt s.host.frame 3 (by decide)
        fLongitude := wordAt s.host.frame 7 (by decide)
        fBattery := s.host.frame[11].setWidth 32
        fUtc := wordAt s.host.frame 12 (by decide)
        err := .ok } }) ∧
    (s.host.frameLen ≠ 16 → exec .decodeBeacon s = .next (raised .invalidSize s))

/-- R162 under the default `ACK_LAYOUT`: the new form where the pair fits it, else the legacy form, else
FieldRange. `FRAME[3..15]` are unchanged. -/
def Obligations.EncodeAckPacksPair : Prop :=
  ∀ s : State, s.cfg.params.ackLayout = .headerForm →
    (s.host.fRadioId.toNat < 128 → s.host.fMessageId.toNat < 32768 →
      exec .encodeAck s = .next { s with host := { s.host with
        frame := headReplaced s.host.frame
          (newHeader (s.host.fRadioId.setWidth 7) false (s.host.fMessageId.setWidth 15))
        frameLen := 3
        err := .ok } }) ∧
    (128 ≤ s.host.fRadioId.toNat → s.host.fRadioId.toNat < 32768 → s.host.fMessageId.toNat < 256 →
      exec .encodeAck s = .next { s with host := { s.host with
        frame := headReplaced s.host.frame
          (legacyHeader (s.host.fRadioId.setWidth 15) (s.host.fMessageId.setWidth 8))
        frameLen := 3
        err := .ok } }) ∧
    (¬(s.host.fRadioId.toNat < 128 ∧ s.host.fMessageId.toNat < 32768) →
      ¬(s.host.fRadioId.toNat < 32768 ∧ s.host.fMessageId.toNat < 256) →
      exec .encodeAck s = .next (raised .fieldRange s))

/-- R163 under the default `ACK_LAYOUT`: only `F_RADIO_ID` and `F_MESSAGE_ID` are written; the reserved bit is
ignored; a length other than 3 raises InvalidSize. -/
def Obligations.DecodeAckUnpacksPair : Prop :=
  ∀ s : State, s.cfg.params.ackLayout = .headerForm →
    (s.host.frameLen = 3 → s.host.frame[0].getLsbD 7 = true →
      exec .decodeAck s = .next { s with host := { s.host with
        fRadioId := (s.host.frame[0].extractLsb' 0 7).setWidth 32
        fMessageId := (s.host.frame[1].extractLsb' 0 7 ++ s.host.frame[2]).setWidth 32
        err := .ok } }) ∧
    (s.host.frameLen = 3 → s.host.frame[0].getLsbD 7 = false →
      exec .decodeAck s = .next { s with host := { s.host with
        fRadioId := (s.host.frame[0].extractLsb' 0 7 ++ s.host.frame[1]).setWidth 32
        fMessageId := s.host.frame[2].setWidth 32
        err := .ok } }) ∧
    (s.host.frameLen ≠ 3 → exec .decodeAck s = .next (raised .invalidSize s))

/-- I1, R150 under EVERY `ACK_LAYOUT`: for a pair a beacon can carry, ENCODE_ACK completes, keeps `FRAME[3..15]`
and everything else, and DECODE_ACK of the result gives the same pair back. -/
def Obligations.AckLayoutIsReplaceable : Prop :=
  ∀ s : State,
    (s.host.fRadioId.toNat < 128 ∧ s.host.fMessageId.toNat < 32768) ∨
      (s.host.fRadioId.toNat < 32768 ∧ s.host.fMessageId.toNat < 256) →
    ∃ b : List Byte, b.length = 3 ∧
      exec .encodeAck s = .next { s with host := { s.host with
        frame := headReplaced s.host.frame b, frameLen := 3, err := .ok } } ∧
      exec .decodeAck { s with host := { s.host with
        frame := headReplaced s.host.frame b, frameLen := 3, err := .ok } } =
        .next { s with host := { s.host with
          frame := headReplaced s.host.frame b, frameLen := 3, err := .ok } }

/-- R261, R262: REPACK_LEGACY rewrites bytes 0 and 1 and keeps the rest, or raises the first error of R304. -/
def Obligations.RepackRewritesHeader : Prop :=
  ∀ s : State,
    (s.host.frameLen ≠ 16 → exec .repackLegacy s = .next (raised .invalidSize s)) ∧
    (s.host.frameLen = 16 → s.host.frame[0].getLsbD 7 = true →
      exec .repackLegacy s = .next (raised .notLegacy s)) ∧
    (s.host.frameLen = 16 → s.host.frame[0].getLsbD 7 = false →
      (s.host.frame[0] ≠ 0 ∨ 128 ≤ s.host.frame[1].toNat) →
      exec .repackLegacy s = .next (raised .radioIdOverflow s)) ∧
    (s.host.frameLen = 16 → s.host.frame[0] = 0 → s.host.frame[1].toNat < 128 →
      100 < s.host.frame[11].toNat → exec .repackLegacy s = .next (raised .fieldRange s)) ∧
    (s.host.frameLen = 16 → Repackable s.host.frame →
      exec .repackLegacy s = .next { s with host := { s.host with
        frame := repacked s.host.frame, err := .ok } })

/-- R280, R281: the accessors write one field register each. -/
def Obligations.AccessorsReadOneField : Prop :=
  ∀ s : State,
    (s.host.frameLen ≠ 16 → exec .getRadioId s = .next (raised .invalidSize s) ∧
      exec .getMessageId s = .next (raised .invalidSize s)) ∧
    (s.host.frameLen = 16 →
      exec .getRadioId s = .next { s with host := { s.host with
        fRadioId := if s.host.frame[0].getLsbD 7 then (s.host.frame[0].extractLsb' 0 7).setWidth 32
          else (s.host.frame[0].extractLsb' 0 7 ++ s.host.frame[1]).setWidth 32
        err := .ok } } ∧
      exec .getMessageId s = .next { s with host := { s.host with
        fMessageId := if s.host.frame[0].getLsbD 7 then
            (s.host.frame[1].extractLsb' 0 7 ++ s.host.frame[2]).setWidth 32
          else s.host.frame[2].setWidth 32
        err := .ok } })

/-! ### Laws of the codec -/

/-- R151: the new-format round trip. -/
def Obligations.NewFormatRoundTrip : Prop :=
  ∀ fs : FieldSet, fs.formatFlag = 1 → inRange fs = true →
    ∃ b, encodeBeacon fs = .ok b ∧ decodeBeacon b = .ok fs

/-- R152: the legacy round trip; an in-range legacy field set has `panic = 0`, and every legacy frame, whatever its
battery byte, decodes to a field set that fits the legacy layout (so `formatFlag = 0` and `panic = 0`) and whose
fields are exactly the bits of the frame. -/
def Obligations.LegacyRoundTrip : Prop :=
  (∀ fs : FieldSet, fs.formatFlag = 0 → inRange fs = true →
    fs.panic = 0 ∧ ∃ b, encodeBeacon fs = .ok b ∧ decodeBeacon b = .ok fs) ∧
  (∀ b : Buffer, b[0].getLsbD 7 = false → ∃ fs, decodeBeacon b.toList = .ok fs ∧
    fs.fitsLegacy = true ∧ fs.panic = 0 ∧
    b = padded (legacyHeader (BitVec.ofNat 15 fs.radioId) (BitVec.ofNat 8 fs.messageId) ++
      tailBytes (BitVec.ofNat 32 fs.latitude) (BitVec.ofNat 32 fs.longitude)
        (BitVec.ofNat 8 fs.batteryPercent) (BitVec.ofNat 32 fs.utcTimestamp)))

/-- R155: the frame round trip, and its failure for a battery byte above 100. -/
def Obligations.FrameRoundTrip : Prop :=
  ∀ b : List Byte, b.length = 16 → ∃ fs, decodeBeacon b = .ok fs ∧
    ((b.getD 11 0).toNat ≤ 100 → encodeBeacon fs = .ok b) ∧
    (100 < (b.getD 11 0).toNat → encodeBeacon fs = .error .fieldRange)

/-- R148: the size guards are exactly the lengths. -/
def Obligations.SizeGuardsAreExact : Prop :=
  ∀ b : List Byte,
    (decodeBeacon b = .error .invalidSize ↔ b.length ≠ 16) ∧
    (repackLegacy b = .error .invalidSize ↔ b.length ≠ 16) ∧
    (∀ l, decodeAck l b = .error .invalidSize ↔ b.length ≠ 3)

/-- R144, R146: the layout used, and the decoded `formatFlag`, are bit 7 of byte 0 and nothing else. -/
def Obligations.FormatBitSelectsLayout : Prop :=
  ∀ (b : Buffer) (fs : FieldSet), decodeBeacon b.toList = .ok fs →
    (b[0].getLsbD 7 = true → fs.formatFlag = 1 ∧ fs.radioId = (b[0].extractLsb' 0 7).toNat ∧
      fs.messageId = (b[1].extractLsb' 0 7 ++ b[2]).toNat ∧ fs.panic = (b[1].extractLsb' 7 1).toNat) ∧
    (b[0].getLsbD 7 = false → fs.formatFlag = 0 ∧
      fs.radioId = (b[0].extractLsb' 0 7 ++ b[1]).toNat ∧ fs.messageId = b[2].toNat ∧ fs.panic = 0)

/-- R263: a repack that succeeds keeps every field but the format flag, and `panic` is 0. -/
def Obligations.RepackPreservesFields : Prop :=
  ∀ (b o : List Byte), repackLegacy b = .ok o →
    ∃ fs, decodeBeacon b = .ok fs ∧ fs.formatFlag = 0 ∧ fs.panic = 0 ∧
      decodeBeacon o = .ok { fs with formatFlag := 1 } ∧ repackLegacy o = .error .notLegacy

/-- R150 under every `ACK_LAYOUT`: decoding undoes encoding. -/
def Obligations.AckRoundTrip : Prop :=
  ∀ (l : AckLayout) (rid mid : Nat) (b : List Byte),
    encodeAck l rid mid = .ok b → b.length = 3 ∧ decodeAck l b = .ok (rid, mid)

/-- R282: after a DECODE_BEACON of a frame, ENCODE_ACK does not raise, and the ack carries the decoded pair. -/
def Obligations.AckOfDecodedBeacon : Prop :=
  ∀ s : State, s.host.frameLen = 16 → ∃ t u,
    exec .decodeBeacon s = .next t ∧ exec .encodeAck t = .next u ∧ u.host.err = .ok ∧
      u.host.frameLen = 3 ∧
      decodeAck s.cfg.params.ackLayout (u.host.frame.toList.take 3) =
        .ok (t.host.fRadioId.toNat, t.host.fMessageId.toNat)

/-! ### Tracker commands -/

/-- R240: BEGIN_WAIT, its errors in order, and the entry it opens. -/
def Obligations.BeginWaitOpensEntry : Prop :=
  ∀ s : State,
    (s.pss.mode = .active → exec .beginWait s = .next (raised .busy s)) ∧
    (s.pss.mode = .standby → (32768 ≤ s.host.fRadioId.toNat ∨ 32768 ≤ s.host.fMessageId.toNat) →
      exec .beginWait s = .next (raised .fieldRange s)) ∧
    (s.pss.mode = .standby → s.host.fRadioId.toNat < 32768 → s.host.fMessageId.toNat < 32768 →
      s.pend.valid = true → exec .beginWait s = .next (raised .pendingExists s)) ∧
    (s.pss.mode = .standby → s.host.fRadioId.toNat < 32768 → s.host.fMessageId.toNat < 32768 →
      s.pend.valid = false → exec .beginWait s = .next { s with
        pend := ⟨true, s.host.fRadioId.setWidth 15, s.host.fMessageId.setWidth 15, s.inputs.now, 0⟩
        host := { s.host with outcome := .none, err := .ok } })

/-- R241: ACK_RECEIVED clears a matching entry and reports MATCH; anything else reports NONE. -/
def Obligations.AckReceivedMatches : Prop :=
  ∀ s : State,
    (s.pss.mode = .active → exec .ackReceived s = .next (raised .busy s)) ∧
    (s.pss.mode = .standby → s.pend.valid = true →
      s.host.fRadioId = s.pend.radioId.setWidth 32 → s.host.fMessageId = s.pend.messageId.setWidth 32 →
      exec .ackReceived s = .next { s with
        pend := ⟨false, 0, 0, 0, 0⟩
        host := { s.host with outcome := .matched, err := .ok } }) ∧
    (s.pss.mode = .standby →
      ¬(s.pend.valid = true ∧ s.host.fRadioId = s.pend.radioId.setWidth 32 ∧
        s.host.fMessageId = s.pend.messageId.setWidth 32) →
      exec .ackReceived s = .next { s with host := { s.host with outcome := .none, err := .ok } })

/-- R242: POLL_TIMEOUT clears a due entry and reports TIMEOUT, at the boundary too; else NONE. -/
def Obligations.PollTimeoutDetects : Prop :=
  ∀ s : State,
    (s.pss.mode = .active → exec .pollTimeout s = .next (raised .busy s)) ∧
    (s.pss.mode = .standby → s.pend.valid = true → Due s s.pend.sentAt s.cfg.params.ackInterval →
      exec .pollTimeout s = .next { s with
        pend := ⟨false, 0, 0, 0, 0⟩
        host := { s.host with outcome := .timeout, err := .ok } }) ∧
    (s.pss.mode = .standby →
      ¬(s.pend.valid = true ∧ Due s s.pend.sentAt s.cfg.params.ackInterval) →
      exec .pollTimeout s = .next { s with host := { s.host with outcome := .none, err := .ok } })

/-- R243: ABORT_WAIT clears the entry, if any. -/
def Obligations.AbortWaitClears : Prop :=
  ∀ s : State,
    (s.pss.mode = .active → exec .abortWait s = .next (raised .busy s)) ∧
    (s.pss.mode = .standby → exec .abortWait s = .next { s with
      pend := ⟨false, 0, 0, 0, 0⟩
      host := { s.host with outcome := .none, err := .ok } })

/-! ### The host port -/

/-- R293: NOP records success. -/
def Obligations.NopClearsError : Prop :=
  ∀ s : State, exec .nop s = .next { s with host := { s.host with err := .ok } }

/-- R290 with R26, R60: an RD returns the register of its index and changes nothing of the block. -/
def Obligations.RdReturnsRegister : Prop :=
  ∀ (s : State) (i : BitVec 6), exec (.rd i) s = .next { s with out := { s.out with
    responses := s.out.responses ++ [(registerWords s).getD i.toNat 0] } }

/-- R291, R292: a WR of `CMD` runs the command of the word or raises IllegalCommand; a WR of an RW register
stores; any other WR has no effect. -/
def Obligations.WrStoresOrIssues : Prop :=
  ∀ (s : State) (i : BitVec 6) (d : Word),
    (∀ c : Command, d.toNat = commandNumber c → exec (.wr 0 d) s = exec c.toInstr s) ∧
    (11 < d.toNat → exec (.wr 0 d) s = .next (raised .illegalCommand s)) ∧
    exec (.wr 0x03 d) s = .next { s with host := { s.host with frameLen := d } } ∧
    exec (.wr 0x04 d) s = .next { s with host := { s.host with fFormat := d } } ∧
    exec (.wr 0x05 d) s = .next { s with host := { s.host with fRadioId := d } } ∧
    exec (.wr 0x06 d) s = .next { s with host := { s.host with fPanic := d } } ∧
    exec (.wr 0x07 d) s = .next { s with host := { s.host with fMessageId := d } } ∧
    exec (.wr 0x08 d) s = .next { s with host := { s.host with fLatitude := d } } ∧
    exec (.wr 0x09 d) s = .next { s with host := { s.host with fLongitude := d } } ∧
    exec (.wr 0x0A d) s = .next { s with host := { s.host with fBattery := d } } ∧
    exec (.wr 0x0B d) s = .next { s with host := { s.host with fUtc := d } } ∧
    (0x10 ≤ i.toNat → i.toNat ≤ 0x1F → exec (.wr i d) s = .next { s with host := { s.host with
      frame := Vector.ofFn fun k => if k.val + 16 = i.toNat then d.extractLsb' 0 8
        else s.host.frame[k] } }) ∧
    (i = 1 ∨ i = 2 ∨ (0x0C ≤ i.toNat ∧ i.toNat ≤ 0x0F) ∨ 0x20 ≤ i.toNat →
      exec (.wr i d) s = .next s)

/-- R302: a command that raises changes only `STATUS.ERR`. -/
def Obligations.RaiseIsPrecise : Prop :=
  ∀ (c : Command) (s t : State), exec c.toInstr s = .next t → t.host.err ≠ .ok →
    t = raised t.host.err s

/-- R301: the errors each command can raise, and no other command word raises anything but IllegalCommand. -/
def Obligations.ErrorsByCommand : Prop :=
  (∀ (c : Command) (s : State), ∃ t, exec c.toInstr s = .next t ∧
    (t.host.err = .ok ∨ t.host.err ∈ possibleErrors c)) ∧
  (∀ (d : Word) (s : State), (∀ c, d.toNat ≠ commandNumber c) →
    exec (.wr 0 d) s = .next (raised .illegalCommand s))

/-- R294: the PKU commands and NOP run in both modes and touch only the host port registers; the ACT commands
raise Busy in ACTIVE; no command changes the PSS or the overheard buffer. -/
def Obligations.CommandsLeaveSequencer : Prop :=
  ∀ (c : Command) (s : State), ∃ t, exec c.toInstr s = .next t ∧
    t = { s with host := t.host, pend := t.pend } ∧
    (isTracker c = false → t.pend = s.pend ∧
      ∀ m, exec c.toInstr { s with pss := { s.pss with mode := m } } =
        .next { t with pss := { s.pss with mode := m } }) ∧
    (isTracker c = true → s.pss.mode = .active → t = raised .busy s)

/-! ### The sequencer -/

/-- R210, R211: an edge strobe sets its request flag and changes nothing else. -/
def Obligations.EdgesSetFlags : Prop :=
  ∀ s : State,
    (∀ pn, exec (.edgeStandby pn) s = .next { s with pss := { s.pss with
      reqStandby := true, reqPanic := s.pss.reqPanic || pn } }) ∧
    exec .edgePanic s = .next { s with pss := { s.pss with reqPanic := true } }

/-- R212: edges of one kind coalesce, and the edges of a vector with TICK are drained by that TICK. -/
def Obligations.EdgesCoalesce : Prop :=
  ∀ s : State,
    (∀ t, exec (.edgeStandby false) s = .next t → exec (.edgeStandby false) t = .next t) ∧
    (∀ t, exec .edgePanic s = .next t → exec .edgePanic t = .next t) ∧
    (∀ t, exec (.edgeStandby false) s = .next t →
      ∀ pn, exec (.tick false pn) t = exec (.tick true pn) s) ∧
    (∀ t, exec .edgePanic s = .next t → ∀ sb, exec (.tick sb false) t = exec (.tick sb true) s)

/-- R181, R185 to R187, R315: a TICK in STANDBY that toggles nothing polls its inputs and discards the received
frame. -/
def Obligations.TickInStandby : Prop :=
  ∀ (s : State) (sb pn : Bool), s.pss.mode = .standby → toggles sb s = false →
    exec (.tick sb pn) s = .next { s with pss := polled pn s, rxQueue := s.rxQueue.tail }

/-- R204: a standby toggle in ACTIVE ends in STANDBY/IDLE in the same tick, with no pending entry, no overheard
frame, no frame sent and the received frame discarded. -/
def Obligations.ToggleCancelsWork : Prop :=
  ∀ (s : State) (sb pn : Bool), s.pss.mode = .active → toggles sb s = true →
    exec (.tick sb pn) s = .next { s with
      pend := PendingMessage.zero
      ovh := Overheard.zero
      pss := { polled pn s with mode := .standby, astate := .idle }
      rxQueue := s.rxQueue.tail }

/-- R183, R184: a standby toggle in STANDBY ends in ACTIVE/IDLE with the timers started; a frame received in the
same tick is examined with no entry pending, and no state step runs. -/
def Obligations.ToggleEntersActive : Prop :=
  ∀ (s : State) (sb pn : Bool), s.pss.mode = .standby → toggles sb s = true →
    let t := idleEntered { s with
      pend := PendingMessage.zero
      pss := { polled pn s with mode := .active, relayStart := s.inputs.now }
      rxQueue := s.rxQueue.tail }
    exec (.tick sb pn) s = .next
      (match received? s with
      | none => t
      | some b => afterReceiving b t)

/-- R194: the IDLE step, its triggers in priority order. -/
def Obligations.IdleStep : Prop :=
  ∀ (s : State) (sb pn : Bool), Steps sb s → s.pss.astate = .idle →
    let r := beforeStep pn s
    (r.pss.panicPending = true → exec (.tick sb pn) s =
      .next { r with pss := { r.pss with panicPending := false, astate := .transmit } }) ∧
    (r.pss.panicPending = false → Due s s.pss.idleStart s.pss.idleDur.toNat →
      exec (.tick sb pn) s = .next { r with pss := { r.pss with astate := .transmit } }) ∧
    (r.pss.panicPending = false → ¬Due s s.pss.idleStart s.pss.idleDur.toNat →
      s.cfg.params.supportsRelay = true →
      Due s s.pss.relayStart s.cfg.params.rangeExtenderInterval →
      exec (.tick sb pn) s = .next { r with pss := { r.pss with astate := .relay } }) ∧
    (r.pss.panicPending = false → ¬Due s s.pss.idleStart s.pss.idleDur.toNat →
      ¬(s.cfg.params.supportsRelay = true ∧
        Due s s.pss.relayStart s.cfg.params.rangeExtenderInterval) →
      exec (.tick sb pn) s = .next r)

/-- R195, R196, R197: the TRANSMIT step. A battery above 100 sends nothing and enters IDLE; otherwise the beacon
is handed over, the wait begins, the counter moves on and the state is AWAIT_ACK. -/
def Obligations.TransmitStep : Prop :=
  ∀ (s : State) (sb pn : Bool), Steps sb s → s.pss.astate = .transmit →
    let r := beforeStep pn s
    let h := handed (ownBeacon r) r
    (100 < s.inputs.battery.toNat → exec (.tick sb pn) s = .next (idleEntered { r with
      pss := { r.pss with sticky := { r.pss.sticky with seqRange := true } }
      out := { r.out with log := r.out.log ++ [.seqRange s.inputs.battery] } })) ∧
    (s.inputs.battery.toNat ≤ 100 → r.pend.valid = false →
      exec (.tick sb pn) s = .next { h with
        pend := ⟨true, BitVec.ofNat 15 s.cfg.params.nodeRadioId, s.pss.msgCounter, s.inputs.now, 0⟩
        pss := { h.pss with msgCounter := s.pss.msgCounter + 1, astate := .awaitAck } }) ∧
    (s.inputs.battery.toNat ≤ 100 → r.pend.valid = true →
      exec (.tick sb pn) s = .next { h with
        pss := { h.pss with
          msgCounter := s.pss.msgCounter + 1, astate := .awaitAck
          sticky := { h.pss.sticky with seqPending := true } }
        out := { h.out with log := h.out.log ++ [.seqPending] } })

/-- R198: the AWAIT_ACK step. A match taken in this tick's receive phase comes before the timeout. -/
def Obligations.AwaitAckStep : Prop :=
  ∀ (s : State) (sb pn : Bool), Steps sb s → s.pss.astate = .awaitAck →
    let r := beforeStep pn s
    (r.pend.valid = false → exec (.tick sb pn) s = .next (idleEntered r)) ∧
    (r.pend.valid = true → Due s s.pend.sentAt s.cfg.params.ackInterval →
      exec (.tick sb pn) s = .next (idleEntered { r with
        pend := PendingMessage.zero
        out := { r.out with
          log := r.out.log ++ [.ackTimeout s.pend.radioId.toNat s.pend.messageId.toNat] } })) ∧
    (r.pend.valid = true → ¬Due s s.pend.sentAt s.cfg.params.ackInterval →
      exec (.tick sb pn) s = .next r)

/-- R199: the RELAY step. A legacy beacon is repacked or dropped, anything else is sent unchanged; the relay
interval restarts and the idle backoff is kept. -/
def Obligations.RelayStep : Prop :=
  ∀ (s : State) (sb pn : Bool), Steps sb s → s.pss.astate = .relay →
    let r := beforeStep pn s
    let done := fun t : State => { t with
      ovh := Overheard.zero
      pss := { t.pss with relayStart := s.inputs.now, astate := .idle } }
    (r.ovh.valid = false → exec (.tick sb pn) s =
      .next { r with pss := { r.pss with relayStart := s.inputs.now, astate := .idle } }) ∧
    (r.ovh.valid = true → r.ovh.len = 16 → r.ovh.bytes[0].getLsbD 7 = false →
      Repackable r.ovh.bytes →
      exec (.tick sb pn) s = .next (done (handed (repacked r.ovh.bytes).toList r))) ∧
    (r.ovh.valid = true → r.ovh.len = 16 → r.ovh.bytes[0].getLsbD 7 = false →
      ¬Repackable r.ovh.bytes →
      exec (.tick sb pn) s = .next (done { r with
        pss := { r.pss with sticky := { r.pss.sticky with relayDrop := true } }
        out := { r.out with log := r.out.log ++ [.relayDrop
          (if r.ovh.bytes[0] ≠ 0 ∨ 128 ≤ r.ovh.bytes[1].toNat then .radioIdOverflow
           else .fieldRange)] } })) ∧
    (r.ovh.valid = true → ¬(r.ovh.len = 16 ∧ r.ovh.bytes[0].getLsbD 7 = false) →
      exec (.tick sb pn) s =
        .next (done (handed (r.ovh.bytes.toList.take r.ovh.len.toNat) r)))

/-- R84, R307: a TICK neither reads nor writes a host port register. -/
def Obligations.TickIgnoresHostPort : Prop :=
  ∀ (s : State) (h : HostPort) (sb pn : Bool), ∃ t,
    exec (.tick sb pn) s = .next t ∧ t.host = s.host ∧
      exec (.tick sb pn) { s with host := h } = .next { t with host := h }

/-- R180, R192: from a safe state a TICK makes a transition of R180, or stays in place. -/
def Obligations.TickTransitions : Prop :=
  ∀ (s : State) (sb pn : Bool), Safe s → ∃ t, exec (.tick sb pn) s = .next t ∧
    allowedTransition s.cfg.params.supportsRelay (s.pss.mode, s.pss.astate)
      (t.pss.mode, t.pss.astate) = true

/-- R202: a beacon transmitted from a safe state decodes to the node's id, the panic flag as it stands after the
tick's toggle, and the counter's value. -/
def Obligations.TransmittedBeaconDecodes : Prop :=
  ∀ (s : State) (sb pn : Bool), Safe s → Steps sb s → s.pss.astate = .transmit →
    s.inputs.battery.toNat ≤ 100 → ∃ t b ok fs, exec (.tick sb pn) s = .next t ∧
      t.out.sent = s.out.sent ++ [⟨b, ok⟩] ∧ decodeBeacon b = .ok fs ∧ fs.formatFlag = 1 ∧
      fs.radioId = s.cfg.params.nodeRadioId ∧ fs.messageId = s.pss.msgCounter.toNat ∧
      fs.panic = t.pss.panic.toNat ∧ t.pss.panic = (s.pss.panic ^^ togglesPanic pn s)

/-- R195, R198, R282: the beacon's ack, whatever the `ACK_LAYOUT` (log 11), ends the wait. Once the node has
transmitted from a safe state, take any state with the same configuration and pending entry, in ACTIVE/AWAIT_ACK with
no standby request: whatever else happened since (a fix, panic edges, failures, host accesses, time), a TICK there
that drains no standby edge and receives the ack of that beacon is a match and enters IDLE. -/
def Obligations.AckEndsTheWait : Prop :=
  ∀ (s : State) (sb pn : Bool), Safe s → Steps sb s → s.pss.astate = .transmit →
    s.inputs.battery.toNat ≤ 100 → ∃ t b, exec (.tick sb pn) s = .next t ∧
      encodeAck s.cfg.params.ackLayout s.cfg.params.nodeRadioId s.pss.msgCounter.toNat = .ok b ∧
      t.pss.mode = .active ∧ t.pss.astate = .awaitAck ∧ t.pss.reqStandby = false ∧
      ∀ (u : State) (pn' : Bool), u.cfg = t.cfg → u.pend = t.pend → u.pss.mode = t.pss.mode →
        u.pss.astate = t.pss.astate → u.pss.reqStandby = t.pss.reqStandby →
        (∃ f rest, u.rxQueue = f :: rest ∧ f.bytes = b) →
        ∃ v, exec (.tick false pn') u = .next v ∧ v.pend = PendingMessage.zero ∧
          v.pss.mode = .active ∧ v.pss.astate = .idle ∧ v.pss.idleStart = u.inputs.now ∧
          v.out.log = u.out.log ++ [.ackMatch s.cfg.params.nodeRadioId s.pss.msgCounter.toNat]

/-! ### Reset -/

/-- R340, R65: RESET sets every piece of the block's state, by the switch, `now` and `rng`. That it keeps what lies
outside the block (configuration, input ports, transport queue, schedule, traces of outputs) is the model's choice,
log 6. -/
def Obligations.ResetSetsEverything : Prop :=
  ∀ s : State,
    let z : State := { s with
      host := ⟨.ok, .none, 0, 0, 0, 0, 0, 0, 0, 0, 0, Vector.replicate 16 0⟩
      pend := ⟨false, 0, 0, 0, 0⟩
      ovh := ⟨false, 0, Vector.replicate 16 0⟩
      pss := ⟨.standby, .idle, false, false, false, false, 0, 0, 0, 0, 0, 0, false, 0,
        ⟨false, false, false, false, false⟩⟩ }
    (s.inputs.switchActive = false → exec .reset s = .next z) ∧
    (s.inputs.switchActive = true → exec .reset s = .next (idleEntered { z with
      pss := { z.pss with mode := .active, relayStart := s.inputs.now } }))

/-! ### Frames on the air -/

/-- R101, R103, R104: a legacy frame form has the bytes of its layout, which decode to its fields: a beacon's always,
an ack's under the default `ACK_LAYOUT`. That the form is the arrival of those bytes at the end of the transport's
queue is the model's choice, logs 4 and 5. -/
def Obligations.LegacyFormsArrive : Prop :=
  (∀ (s : State) (f : FieldSet), f.fitsLegacy = true → ∃ b, decodeBeacon b = .ok f ∧
    b = legacyHeader (BitVec.ofNat 15 f.radioId) (BitVec.ofNat 8 f.messageId) ++
      tailBytes (BitVec.ofNat 32 f.latitude) (BitVec.ofNat 32 f.longitude)
        (BitVec.ofNat 8 f.batteryPercent) (BitVec.ofNat 32 f.utcTimestamp) ∧
    exec (.beaconLegacy f) s = .next { s with
      rxQueue := s.rxQueue ++ [⟨b, s.inputs.routing⟩] }) ∧
  (∀ (s : State) (rid mid : Nat), rid < 32768 → mid < 256 → ∃ b,
    decodeAck .headerForm b = .ok (rid, mid) ∧
    b = legacyHeader (BitVec.ofNat 15 rid) (BitVec.ofNat 8 mid) ∧
    exec (.ackLegacy rid mid) s = .next { s with
      rxQueue := s.rxQueue ++ [⟨b, s.inputs.routing⟩] })

/-- R102, R103, R104: a new frame form has the bytes of its layout, which decode to its fields: a beacon's always, an
ack's under the default `ACK_LAYOUT`, which ignores the reserved bit. That the form is the arrival of those bytes at
the end of the transport's queue is the model's choice, logs 4 and 5. -/
def Obligations.NewFormsArrive : Prop :=
  (∀ (s : State) (f : FieldSet), f.fitsNew = true → ∃ b, decodeBeacon b = .ok f ∧
    b = newHeader (BitVec.ofNat 7 f.radioId) (decide (f.panic = 1)) (BitVec.ofNat 15 f.messageId) ++
      tailBytes (BitVec.ofNat 32 f.latitude) (BitVec.ofNat 32 f.longitude)
        (BitVec.ofNat 8 f.batteryPercent) (BitVec.ofNat 32 f.utcTimestamp) ∧
    exec (.beaconNew f) s = .next { s with
      rxQueue := s.rxQueue ++ [⟨b, s.inputs.routing⟩] }) ∧
  (∀ (s : State) (rid mid : Nat) (res : Bool), rid < 128 → mid < 32768 → ∃ b,
    decodeAck .headerForm b = .ok (rid, mid) ∧
    b = newHeader (BitVec.ofNat 7 rid) res (BitVec.ofNat 15 mid) ∧
    exec (.ackNew rid res mid) s = .next { s with
      rxQueue := s.rxQueue ++ [⟨b, s.inputs.routing⟩] })

/-! ### Encodings -/

/-- R100 to R114: decoding the encoding of a well-formed instruction gives it back. -/
def Obligations.DecodeEncode : Prop :=
  ∀ i : Instr, i.wellFormed = true → decode (encode i) = .ok i

/-- R105, R106, R110 to R114: an instruction read from a signal is well-formed, and its encoding is that signal
but for the data word of a read, which is the response. -/
def Obligations.EncodeDecode : Prop :=
  ∀ (sig : Signal) (i : Instr), decode sig = .ok i → i.wellFormed = true ∧
    (encode i = sig ∨ ∃ a d, sig = .bus a d ∧ a.getLsbD 6 = false ∧ encode i = .bus a 0)

/-- R104, R110, R111, R113, R114: a few words written from the encodings decode to their instructions. Which line of
the block carries a word, chosen by its number of bits (and a strobe vector for a byte of 1 to 7), is the model's
choice, log 12. -/
def Obligations.TableWordsDecode : Prop :=
  decodeTableWord 32 0x0000000A = some .pollTimeout ∧
  decodeTableWord 32 0x00000105 = none ∧
  decodeTableWord 8 0x40 = some (.wr 0 0) ∧
  decodeTableWord 8 0x22 = some (.rd 0x22) ∧
  decodeTableWord 8 0x05 = some (.tick false true) ∧
  decodeTableWord 24 0x2A0085 = some (.ackNew 5 false 42)

/-! ### The whole machine -/

/-- R80, R12: when the next step's signal decodes to `i`, the step samples its inputs and is `exec i`. -/
def Obligations.StepRunsDecoded : Prop :=
  ∀ (s : State) (ev : Event) (rest : List Event) (i : Instr), s.schedule = ev :: rest →
    decode ev.signal = .ok i → step s = exec i { s with schedule := rest, inputs := ev.inputs }

/-- R110, R112, R189, and logs 2, 13, 15: what a step does with no instruction to run. An illegal command word
raises IllegalCommand; a frame of another length arrives; an empty vector and an empty schedule (the model's
choice, log 2) change nothing. -/
def Obligations.StepWithoutInstruction : Prop :=
  ∀ (s : State) (inp : Inputs) (rest : List Event),
    let t := { s with schedule := rest, inputs := inp }
    (∀ w : Word, 11 < w.toNat → s.schedule = ⟨.command w, inp⟩ :: rest →
      step s = .next (raised .illegalCommand t)) ∧
    (∀ b : List Byte, b.length ≠ 16 → b.length ≠ 3 → s.schedule = ⟨.wire b, inp⟩ :: rest →
      step s = .next { t with rxQueue := t.rxQueue ++ [⟨b, inp.routing⟩] }) ∧
    (s.schedule = ⟨.strobe 0, inp⟩ :: rest → step s = .next t) ∧
    (s.schedule = [] → step s = .next s)

/-- Log 1: the table word put in front of the schedule is the very next step, under the ports as they stand. -/
def Obligations.FetchWordRunsNext : Prop :=
  ∀ (s : State) (nbits w : Nat) (i : Instr), decodeTableWord nbits w = some i →
    step (s.withFetchWord nbits w) = exec i s

/-- R305, R307: no instruction stops the machine, in any state. -/
def Obligations.EveryInstructionCompletes : Prop :=
  ∀ (i : Instr) (s : State), ∃ t, exec i s = .next t

/-- R6, R90: no step changes the configuration. -/
def Obligations.ConfigurationIsFixed : Prop :=
  ∀ s t : State, step s = .next t → t.cfg = s.cfg

/-- R30: only the standby toggle in a TICK, and reset, write `MODE`; its code is 0 in STANDBY and 1 in ACTIVE. -/
def Obligations.ModeChangesOnlyByToggle : Prop :=
  (Mode.standby.code = 0 ∧ Mode.active.code = 1) ∧
  ∀ (i : Instr) (s : State), ∃ t, exec i s = .next t ∧
    (t.pss.mode ≠ s.pss.mode →
      (i = .reset ∧ (t.pss.mode = .active ↔ s.inputs.switchActive = true)) ∨
        ∃ sb pn, i = .tick sb pn ∧ toggles sb s = true)

/-- R39, R382: the message counter moves only when a TICK transmits, by one modulo 2^15, or at reset, to 0. -/
def Obligations.CounterMovesByTransmitting : Prop :=
  ∀ (i : Instr) (s : State), ∃ t, exec i s = .next t ∧
    (t.pss.msgCounter = s.pss.msgCounter ∨ (i = .reset ∧ t.pss.msgCounter = 0) ∨
      (t.pss.msgCounter = s.pss.msgCounter + 1 ∧ (∃ sb pn, i = .tick sb pn) ∧ s.pss.mode = .active ∧ s.pss.astate = .transmit ∧
        s.inputs.battery.toNat ≤ 100 ∧ ∃ b, t.out.sent = s.out.sent ++ [⟨b, s.inputs.sendOk⟩]))

/-- R25, R38, R306: sticky bits and `FIX_VALID`, once set, stay set under every instruction but RESET. -/
def Obligations.StickyBitsAccumulate : Prop :=
  ∀ (i : Instr) (s : State), i ≠ .reset → ∃ t, exec i s = .next t ∧
    (s.pss.sticky.rxInvalidSize = true → t.pss.sticky.rxInvalidSize = true) ∧
    (s.pss.sticky.seqRange = true → t.pss.sticky.seqRange = true) ∧
    (s.pss.sticky.seqPending = true → t.pss.sticky.seqPending = true) ∧
    (s.pss.sticky.relayDrop = true → t.pss.sticky.relayDrop = true) ∧
    (s.pss.sticky.sendFail = true → t.pss.sticky.sendFail = true) ∧
    (s.pss.fixValid = true → t.pss.fixValid = true)

/-- R325, R295: a TICK hands at most one sequence to `Send`, of 16 or 3 bytes in a safe state, and only in
TRANSMIT or RELAY; no other instruction hands any. -/
def Obligations.SendAtMostOncePerTick : Prop :=
  ∀ (i : Instr) (s : State), Safe s → ∃ t, exec i s = .next t ∧
    (t.out.sent = s.out.sent ∨
      ∃ b, t.out.sent = s.out.sent ++ [⟨b, s.inputs.sendOk⟩] ∧ (b.length = 16 ∨ b.length = 3) ∧
        (∃ sb pn, i = .tick sb pn) ∧ s.pss.mode = .active ∧
        (s.pss.astate = .transmit ∨ s.pss.astate = .relay))

/-- R55: routing metadata is passed through and never read. -/
def Obligations.RoutingIsNeverRead : Prop :=
  ∀ (i : Instr) (s : State), ∃ t u, exec i s = .next t ∧ exec i (eraseRouting s) = .next u ∧
    eraseRouting u = eraseRouting t

/-- R10, R320: with the clock a count of milliseconds, a timer is due exactly when its interval has passed, for
any two times less than 2^32 ms apart, also across a wrap of `now`: the comparison of the idle and relay timers, and
that of the ack timer with `PEND_SENTAT`. -/
def Obligations.TimersSurviveWrap : Prop :=
  ∀ (s : State) (started time : Nat), started ≤ time → time - started < 2 ^ 32 →
    s.inputs.now = BitVec.ofNat 32 time →
    (∀ interval, timerDue s (BitVec.ofNat 32 started) interval = true ↔ interval ≤ time - started) ∧
    (s.pend.valid = true → s.pend.sentAt = BitVec.ofNat 32 started →
      (ackDue s.inputs.now s = true ↔ s.cfg.params.ackInterval ≤ time - started))

/-- R7, and log 10 for the width: a configuration is accepted, as it is, exactly when it meets the constraints. -/
def Obligations.ConfigurationsMeetConstraints : Prop :=
  ∀ p : Params, (∃ c, Config.ofParams p = .ok c ∧ c.params = p) ↔
    (p.validPacketSize = 16 ∧ p.ackSizeBytes = 3 ∧ p.idleVariance ≤ p.idleInterval ∧
      p.idleInterval + p.idleVariance < 2 ^ p.timeWidth ∧ p.ackInterval < 2 ^ p.timeWidth ∧
      p.rangeExtenderInterval < 2 ^ p.timeWidth ∧ p.nodeRadioId < 2 ^ 7 ∧ p.timeWidth = 32)

/-- R65, R201: the model's reset state is safe, and so is the state after RESET in any state, whatever the switch,
`now`, `rng` and the configuration. -/
def Obligations.ResetIsSafe : Prop :=
  Safe State.reset ∧ ∀ s : State, ∃ t, exec .reset s = .next t ∧ Safe t

/-- R31, R35, R42 to R44, R51, R52, R201, R203, R326: every step from a safe state answers a next state, and that
state is safe. -/
def Obligations.StepKeepsSafe : Prop :=
  ∀ s : State, Safe s → ∃ t, step s = .next t ∧ Safe t

/-- R201, R203, R305: a run of any length from any safe state, whatever its schedule, never stops, stays safe and
keeps its configuration. -/
def Obligations.RunsStaySafe : Prop :=
  ∀ (k : Nat) (s : State), Safe s → ∃ t, Sys2Proof.core.run k s = .next t ∧ Safe t ∧ t.cfg = s.cfg
end

