-- ==== Sys2Proof/Laws/Frames.lean ====
section
/-! SUPPORT. What the buffer and frame functions give, said once. -/

namespace Sys2Proof

/-! ### Lengths -/

@[simp] theorem leBytes_length (n v : Nat) : (leBytes n v).length = n := by
  induction n generalizing v with
  | zero => rfl
  | succ n ih => simp [leBytes, ih]

@[simp] theorem beaconHeader_length (fs : FieldSet) : (beaconHeader fs).length = 3 := by
  unfold beaconHeader; split <;> rfl

@[simp] theorem beaconTail_length (fs : FieldSet) : (beaconTail fs).length = 13 := by
  simp [beaconTail]

@[simp] theorem insertBeacon_length (fs : FieldSet) : (insertBeacon fs).length = 16 := by
  simp [insertBeacon]

@[simp] theorem insertAckNew_length (rid : Nat) (res : Bool) (mid : Nat) :
    (insertAckNew rid res mid).length = 3 := rfl

@[simp] theorem insertAckLegacy_length (rid mid : Nat) : (insertAckLegacy rid mid).length = 3 := rfl

/-! ### Well-formed field sets, as propositions -/

theorem tailFits_iff (f : FieldSet) : f.tailFits = true ↔
    f.latitude < 2 ^ 32 ∧ f.longitude < 2 ^ 32 ∧ f.batteryPercent < 2 ^ 8 ∧
      f.utcTimestamp < 2 ^ 32 := by
  simp [FieldSet.tailFits, and_assoc]

theorem fitsLegacy_iff (f : FieldSet) : f.fitsLegacy = true ↔
    f.formatFlag = 0 ∧ f.radioId < 2 ^ 15 ∧ f.panic = 0 ∧ f.messageId < 2 ^ 8 ∧
      f.tailFits = true := by
  simp [FieldSet.fitsLegacy, and_assoc]

theorem fitsNew_iff (f : FieldSet) : f.fitsNew = true ↔
    f.formatFlag = 1 ∧ f.radioId < 2 ^ 7 ∧ f.panic < 2 ∧ f.messageId < 2 ^ 15 ∧
      f.tailFits = true := by
  simp [FieldSet.fitsNew, and_assoc]

/-! ### Bytes as numbers -/

theorem byteAt_lt (b : List Byte) (i : Nat) : byteAt b i < 256 := (b.getD i 0).isLt

@[simp] theorem byteOf_toNat (n : Nat) : (byteOf n).toNat = n % 256 := by
  simp [byteOf]

/-- The format flag is a bit. -/
theorem formatBit_le_one (b : List Byte) : formatBit b ≤ 1 := by
  have h := byteAt_lt b 0
  simp only [formatBit, Nat.shiftRight_eq_div_pow]
  omega

/-- The disjunction of a multiple of 256 and a byte is their sum. -/
theorem shiftLeft_or_byte (a c : Nat) (h : c < 256) : (a <<< 8) ||| c = a * 256 + c := by
  rw [Nat.shiftLeft_eq, Nat.mul_comm, ← Nat.two_pow_add_eq_or_of_lt (i := 8) (by omega) a]

theorem and_0x7F (a : Nat) : a &&& 0x7F = a % 128 := Nat.and_two_pow_sub_one_eq_mod a 7

theorem and_0xFF (a : Nat) : a &&& 0xFF = a % 256 := Nat.and_two_pow_sub_one_eq_mod a 8

/-- The disjunction of bit 7 and a seven-bit value is their sum. -/
theorem bit7_or (a : Nat) (h : a < 128) : 0x80 ||| a = 128 + a := by
  rw [show 0x80 = 2 ^ 7 * 1 by rfl, ← Nat.two_pow_add_eq_or_of_lt (i := 7) (by omega) 1]

theorem wideRadioId_eq (b : List Byte) :
    wideRadioId b = byteAt b 0 % 128 * 256 + byteAt b 1 := by
  rw [wideRadioId, and_0x7F, shiftLeft_or_byte _ _ (byteAt_lt b 1)]

theorem wideMessageId_eq (b : List Byte) :
    wideMessageId b = byteAt b 1 % 128 * 256 + byteAt b 2 := by
  rw [wideMessageId, and_0x7F, shiftLeft_or_byte _ _ (byteAt_lt b 2)]

/-- Fields of two 7- and 8-bit parts are below 2^15. -/
theorem wideRadioId_lt (b : List Byte) : wideRadioId b < 2 ^ 15 := by
  have := byteAt_lt b 1
  rw [wideRadioId_eq]; omega

theorem wideMessageId_lt (b : List Byte) : wideMessageId b < 2 ^ 15 := by
  have := byteAt_lt b 2
  rw [wideMessageId_eq]; omega

/-- A 32-bit field is the sum of its four bytes, least significant first (R72). -/
theorem memRead_four (b : List Byte) (o : Nat) :
    memRead b o 4 = byteAt b o + 256 * (byteAt b (o + 1) + 256 * (byteAt b (o + 2) +
      256 * byteAt b (o + 3))) := by
  have h0 := byteAt_lt b o
  have h1 := byteAt_lt b (o + 1)
  have h2 := byteAt_lt b (o + 2)
  simp only [memRead, Nat.zero_shiftLeft, Nat.or_zero]
  rw [Nat.or_comm (byteAt b (o + 1 + 1)), shiftLeft_or_byte _ _ h2,
    Nat.or_comm (byteAt b (o + 1)), shiftLeft_or_byte _ _ h1,
    Nat.or_comm (byteAt b o), shiftLeft_or_byte _ _ h0]
  ring

theorem memRead_four_lt (b : List Byte) (o : Nat) : memRead b o 4 < 2 ^ 32 := by
  have h0 := byteAt_lt b o
  have h1 := byteAt_lt b (o + 1)
  have h2 := byteAt_lt b (o + 2)
  have h3 := byteAt_lt b (o + 3)
  rw [memRead_four]; omega

/-! ### Frames, bit by bit (R101 to R104) -/

/-- A bit in front of a word adds its weight. -/
theorem ofBool_append_toNat (b : Bool) (n : Nat) (x : BitVec n) :
    (BitVec.ofBool b ++ x).toNat = b.toNat * 2 ^ n + x.toNat := by
  rw [BitVec.toNat_append, BitVec.toNat_ofBool, Nat.shiftLeft_eq, Nat.mul_comm,
    ← Nat.two_pow_add_eq_or_of_lt x.isLt]

/-- The low byte of a word, from its number. -/
theorem byteOf_low {n : Nat} (w : BitVec n) (k : Nat) :
    byteOf (w.toNat >>> k) = w.extractLsb' k 8 := by
  apply BitVec.eq_of_toNat_eq
  rw [byteOf_toNat, BitVec.extractLsb'_toNat]

/-- R72: the four bytes of a word, least significant first. -/
theorem leBytes_word (w : Word) : leBytes 4 w.toNat =
    [w.extractLsb' 0 8, w.extractLsb' 8 8, w.extractLsb' 16 8, w.extractLsb' 24 8] := by
  simp only [leBytes, ← byteOf_low, Nat.shiftRight_zero, ← Nat.shiftRight_add]

/-- R102, R104: the bits of a new header. -/
theorem insertAckNew_bits (rid mid : Nat) (bit : Bool) (hr : rid < 2 ^ 7) (hm : mid < 2 ^ 15) :
    insertAckNew rid bit mid = [1#1 ++ BitVec.ofNat 7 rid,
      BitVec.ofBool bit ++ (BitVec.ofNat 15 mid).extractLsb' 8 7,
      (BitVec.ofNat 15 mid).extractLsb' 0 8] := by
  have e0 : byteOf (0x80 ||| rid) = 1#1 ++ BitVec.ofNat 7 rid := by
    apply BitVec.eq_of_toNat_eq
    rw [bit7_or _ (by omega), byteOf_toNat,
      show (1#1 ++ BitVec.ofNat 7 rid : Byte) = BitVec.ofBool true ++ BitVec.ofNat 7 rid from rfl,
      ofBool_append_toNat, BitVec.toNat_ofNat, Bool.toNat_true]
    omega
  have e1 : byteOf ((bit.toNat <<< 7) ||| (mid >>> 8)) =
      BitVec.ofBool bit ++ (BitVec.ofNat 15 mid).extractLsb' 8 7 := by
    apply BitVec.eq_of_toNat_eq
    have hs : mid >>> 8 < 2 ^ 7 := by rw [Nat.shiftRight_eq_div_pow]; omega
    have hb := Bool.toNat_lt bit
    rw [ofBool_append_toNat, byteOf_toNat, Nat.shiftLeft_eq, Nat.mul_comm bit.toNat,
      ← Nat.two_pow_add_eq_or_of_lt hs, BitVec.extractLsb'_toNat, BitVec.toNat_ofNat]
    simp only [Nat.shiftRight_eq_div_pow] at hs ⊢
    omega
  have e2 : byteOf (mid &&& 0xFF) = (BitVec.ofNat 15 mid).extractLsb' 0 8 := by
    apply BitVec.eq_of_toNat_eq
    rw [byteOf_toNat, and_0xFF, BitVec.extractLsb'_toNat, BitVec.toNat_ofNat, Nat.shiftRight_zero]
    omega
  rw [insertAckNew, e0, e1, e2]

/-- R101, R104: the bits of a legacy header. -/
theorem insertAckLegacy_bits (rid mid : Nat) (hr : rid < 2 ^ 15) :
    insertAckLegacy rid mid = [0#1 ++ (BitVec.ofNat 15 rid).extractLsb' 8 7,
      (BitVec.ofNat 15 rid).extractLsb' 0 8, BitVec.ofNat 8 mid] := by
  have e0 : byteOf (rid >>> 8) = 0#1 ++ (BitVec.ofNat 15 rid).extractLsb' 8 7 := by
    apply BitVec.eq_of_toNat_eq
    rw [show (0#1 ++ (BitVec.ofNat 15 rid).extractLsb' 8 7 : Byte) =
        BitVec.ofBool false ++ (BitVec.ofNat 15 rid).extractLsb' 8 7 from rfl,
      ofBool_append_toNat, byteOf_toNat, BitVec.extractLsb'_toNat, BitVec.toNat_ofNat,
      Bool.toNat_false]
    simp only [Nat.shiftRight_eq_div_pow]
    omega
  have e1 : byteOf (rid &&& 0xFF) = (BitVec.ofNat 15 rid).extractLsb' 0 8 := by
    apply BitVec.eq_of_toNat_eq
    rw [byteOf_toNat, and_0xFF, BitVec.extractLsb'_toNat, BitVec.toNat_ofNat, Nat.shiftRight_zero]
    omega
  rw [insertAckLegacy, e0, e1]; rfl

/-- R106: a beacon header is an ack header with the panic flag in the reserved place. -/
theorem beaconHeader_new {fs : FieldSet} (h : fs.fitsNew = true) :
    beaconHeader fs = insertAckNew fs.radioId (decide (fs.panic = 1)) fs.messageId := by
  obtain ⟨hf, _, hp, _, _⟩ := (fitsNew_iff _).1 h
  have : (decide (fs.panic = 1)).toNat = fs.panic := by
    interval_cases fs.panic <;> rfl
  rw [beaconHeader, if_neg (by omega), insertAckNew, this]

theorem beaconHeader_legacy {fs : FieldSet} (h : fs.formatFlag = 0) :
    beaconHeader fs = insertAckLegacy fs.radioId fs.messageId := by
  rw [beaconHeader, if_pos h]; rfl

end Sys2Proof

namespace Sys2Proof.Machine

/-! ### Buffers -/

/-- Byte `k` of an overlaid buffer: the sequence's byte where it has one, else the old byte. -/
@[simp] theorem overlay_getElem (b : Buffer) (bytes : List Byte) (k : Nat) (h : k < 16) :
    (overlay b bytes)[k] = bytes.getD k b[k] := by
  simp [overlay]

/-- A sequence of sixteen bytes replaces a buffer whole. -/
theorem overlay_full (b : Buffer) (bytes : List Byte) (h : bytes.length = 16) :
    overlay b bytes = ⟨bytes.toArray, by simpa using h⟩ := by
  ext k hk
  simp [List.getD_eq_getElem?_getD, h, hk]

theorem bufferByte_eq (b : Buffer) (k : Nat) (h : k < 16) : bufferByte b k = b[k] := by
  simp [bufferByte, Vector.getD, h]

theorem bufferByte_past (b : Buffer) (k : Nat) (h : 16 ≤ k) : bufferByte b k = 0 := by
  simp [bufferByte, Vector.getD, Nat.not_lt.mpr h]

@[simp] theorem bufferBytes_length (b : Buffer) (n : Nat) (h : n ≤ 16) :
    (bufferBytes b n).length = n := by
  simp [bufferBytes, h]

/-- Byte `k` of the sequence read from a buffer. -/
theorem byteAt_bufferBytes (b : Buffer) (n k : Nat) (hk : k < n) (hn : n ≤ 16) :
    byteAt (bufferBytes b n) k = (bufferByte b k).toNat := by
  have : k < 16 := by omega
  simp [byteAt, bufferBytes, List.getD_eq_getElem?_getD, hk, this, bufferByte_eq]

/-! ### Pure functions of the PKU -/

/-- R141 as a proposition. -/
theorem inRange_iff (fs : FieldSet) : inRange fs = true ↔
    fs.formatFlag ≤ 1 ∧ fs.panic ≤ 1 ∧ fs.batteryPercent ≤ 100 ∧ fs.latitude < 2 ^ 32 ∧
      fs.longitude < 2 ^ 32 ∧ fs.utcTimestamp < 2 ^ 32 ∧
      (fs.formatFlag = 1 → fs.radioId < 2 ^ 7 ∧ fs.messageId < 2 ^ 15) ∧
      (fs.formatFlag ≠ 1 → fs.radioId < 2 ^ 15 ∧ fs.messageId < 2 ^ 8 ∧ fs.panic = 0) := by
  by_cases h : fs.formatFlag = 1 <;> simp [inRange, h, and_assoc]

/-- R141: an in-range field set fits the layout its format flag selects. -/
theorem inRange_fits {fs : FieldSet} (h : inRange fs = true) :
    (fs.formatFlag = 1 ∧ fs.fitsNew = true) ∨ (fs.formatFlag = 0 ∧ fs.fitsLegacy = true) := by
  rw [inRange_iff] at h
  obtain ⟨hf, hp, hb, hla, hlo, hu, hn, hl⟩ := h
  by_cases h1 : fs.formatFlag = 1
  · have := hn h1
    exact .inl ⟨h1, (fitsNew_iff _).2 ⟨h1, this.1, by omega, this.2,
      (tailFits_iff _).2 ⟨hla, hlo, by omega, hu⟩⟩⟩
  · have := hl h1
    exact .inr ⟨by omega, (fitsLegacy_iff _).2 ⟨by omega, this.1, this.2.2, this.2.1,
      (tailFits_iff _).2 ⟨hla, hlo, by omega, hu⟩⟩⟩

theorem encodeBeacon_ok {fs : FieldSet} (h : inRange fs = true) :
    encodeBeacon fs = .ok (insertBeacon fs) := by simp [encodeBeacon, h]

theorem encodeBeacon_error {fs : FieldSet} (h : inRange fs = false) :
    encodeBeacon fs = .error .fieldRange := by simp [encodeBeacon, h]

theorem decodeBeacon_ok {b : List Byte} (h : b.length = 16) :
    decodeBeacon b = .ok (extractBeacon b) := by simp [decodeBeacon, h]

theorem decodeBeacon_error {b : List Byte} (h : b.length ≠ 16) :
    decodeBeacon b = .error .invalidSize := by simp [decodeBeacon, h]

/-- The default layout: encoding is the table of R104. -/
theorem encodeAck_table (rid mid : Nat) :
    encodeAck .headerForm rid mid =
      match tableEncodeAck rid mid with
      | some b => .ok b
      | none => .error .fieldRange := rfl

/-- The default layout: decoding is the table of R104. -/
theorem decodeAck_table {b : List Byte} (h : b.length = 3) :
    decodeAck .headerForm b = .ok (tableDecodeAck b) := by
  simp [decodeAck, h, replacementCodec]

/-- Under every layout, decoding three bytes succeeds with two ids below 2^15. -/
theorem decodeAck_total (l : AckLayout) {b : List Byte} (h : b.length = 3) :
    ∃ r, decodeAck l b = .ok r ∧ r.1 < 2 ^ 15 ∧ r.2 < 2 ^ 15 := by
  unfold decodeAck
  rw [if_neg (by simp [h])]
  cases replacementCodec l with
  | none =>
    refine ⟨_, rfl, ?_⟩
    have h0 := byteAt_lt b 0
    have h2 := byteAt_lt b 2
    unfold tableDecodeAck
    split
    · exact ⟨by rw [and_0x7F]; omega, wideMessageId_lt b⟩
    · exact ⟨wideRadioId_lt b, by simp only; omega⟩
  | some c => exact ⟨_, rfl, (c.decode _).1.isLt, (c.decode _).2.isLt⟩

/-- Under every layout, what `encodeAck` gives has three bytes (R149). -/
theorem encodeAck_length {l : AckLayout} {rid mid : Nat} {b : List Byte}
    (h : encodeAck l rid mid = .ok b) : b.length = 3 := by
  unfold encodeAck at h
  cases hc : replacementCodec l with
  | none =>
    rw [hc] at h
    simp only [tableEncodeAck] at h
    split at h
    next heq =>
      split at heq
      · cases heq; cases h; rfl
      · split at heq
        · cases heq; cases h; rfl
        · cases heq
    · cases h
  | some c =>
    rw [hc] at h
    simp only at h
    split at h
    · cases h; rfl
    · cases h

end Sys2Proof.Machine
end

