-- ==== Sys2Proof/Laws/State.lean ====
section
/-! SUPPORT. One lemma per field per update of the state, so that no proof unfolds an update. -/

namespace Sys2Proof.Machine

section withHost
variable (s : State) (h : HostPort)

@[simp] theorem withHost_cfg : (s.withHost h).cfg = s.cfg := rfl
@[simp] theorem withHost_host : (s.withHost h).host = h := rfl
@[simp] theorem withHost_pend : (s.withHost h).pend = s.pend := rfl
@[simp] theorem withHost_ovh : (s.withHost h).ovh = s.ovh := rfl
@[simp] theorem withHost_pss : (s.withHost h).pss = s.pss := rfl
@[simp] theorem withHost_inputs : (s.withHost h).inputs = s.inputs := rfl
@[simp] theorem withHost_rxQueue : (s.withHost h).rxQueue = s.rxQueue := rfl
@[simp] theorem withHost_schedule : (s.withHost h).schedule = s.schedule := rfl
@[simp] theorem withHost_out : (s.withHost h).out = s.out := rfl

@[simp] theorem withHost_withHost (h' : HostPort) : (s.withHost h).withHost h' = s.withHost h' := rfl
@[simp] theorem withHost_self : s.withHost s.host = s := rfl

end withHost

section withPend
variable (s : State) (p : PendingMessage)

@[simp] theorem withPend_cfg : (s.withPend p).cfg = s.cfg := rfl
@[simp] theorem withPend_host : (s.withPend p).host = s.host := rfl
@[simp] theorem withPend_pend : (s.withPend p).pend = p := rfl
@[simp] theorem withPend_ovh : (s.withPend p).ovh = s.ovh := rfl
@[simp] theorem withPend_pss : (s.withPend p).pss = s.pss := rfl
@[simp] theorem withPend_inputs : (s.withPend p).inputs = s.inputs := rfl
@[simp] theorem withPend_rxQueue : (s.withPend p).rxQueue = s.rxQueue := rfl
@[simp] theorem withPend_schedule : (s.withPend p).schedule = s.schedule := rfl
@[simp] theorem withPend_out : (s.withPend p).out = s.out := rfl

@[simp] theorem withPend_withPend (p' : PendingMessage) : (s.withPend p).withPend p' = s.withPend p' := rfl
@[simp] theorem withPend_self : s.withPend s.pend = s := rfl

end withPend

section withOvh
variable (s : State) (o : Overheard)

@[simp] theorem withOvh_cfg : (s.withOvh o).cfg = s.cfg := rfl
@[simp] theorem withOvh_host : (s.withOvh o).host = s.host := rfl
@[simp] theorem withOvh_pend : (s.withOvh o).pend = s.pend := rfl
@[simp] theorem withOvh_ovh : (s.withOvh o).ovh = o := rfl
@[simp] theorem withOvh_pss : (s.withOvh o).pss = s.pss := rfl
@[simp] theorem withOvh_inputs : (s.withOvh o).inputs = s.inputs := rfl
@[simp] theorem withOvh_rxQueue : (s.withOvh o).rxQueue = s.rxQueue := rfl
@[simp] theorem withOvh_schedule : (s.withOvh o).schedule = s.schedule := rfl
@[simp] theorem withOvh_out : (s.withOvh o).out = s.out := rfl

@[simp] theorem withOvh_withOvh (o' : Overheard) : (s.withOvh o).withOvh o' = s.withOvh o' := rfl
@[simp] theorem withOvh_self : s.withOvh s.ovh = s := rfl

end withOvh

section withPss
variable (s : State) (q : Sequencer)

@[simp] theorem withPss_cfg : (s.withPss q).cfg = s.cfg := rfl
@[simp] theorem withPss_host : (s.withPss q).host = s.host := rfl
@[simp] theorem withPss_pend : (s.withPss q).pend = s.pend := rfl
@[simp] theorem withPss_ovh : (s.withPss q).ovh = s.ovh := rfl
@[simp] theorem withPss_pss : (s.withPss q).pss = q := rfl
@[simp] theorem withPss_inputs : (s.withPss q).inputs = s.inputs := rfl
@[simp] theorem withPss_rxQueue : (s.withPss q).rxQueue = s.rxQueue := rfl
@[simp] theorem withPss_schedule : (s.withPss q).schedule = s.schedule := rfl
@[simp] theorem withPss_out : (s.withPss q).out = s.out := rfl

@[simp] theorem withPss_withPss (q' : Sequencer) : (s.withPss q).withPss q' = s.withPss q' := rfl
@[simp] theorem withPss_self : s.withPss s.pss = s := rfl

end withPss

section withRxQueue
variable (s : State) (r : List RxFrame)

@[simp] theorem withRxQueue_cfg : (s.withRxQueue r).cfg = s.cfg := rfl
@[simp] theorem withRxQueue_host : (s.withRxQueue r).host = s.host := rfl
@[simp] theorem withRxQueue_pend : (s.withRxQueue r).pend = s.pend := rfl
@[simp] theorem withRxQueue_ovh : (s.withRxQueue r).ovh = s.ovh := rfl
@[simp] theorem withRxQueue_pss : (s.withRxQueue r).pss = s.pss := rfl
@[simp] theorem withRxQueue_inputs : (s.withRxQueue r).inputs = s.inputs := rfl
@[simp] theorem withRxQueue_rxQueue : (s.withRxQueue r).rxQueue = r := rfl
@[simp] theorem withRxQueue_schedule : (s.withRxQueue r).schedule = s.schedule := rfl
@[simp] theorem withRxQueue_out : (s.withRxQueue r).out = s.out := rfl

@[simp] theorem withRxQueue_withRxQueue (r' : List RxFrame) : (s.withRxQueue r).withRxQueue r' = s.withRxQueue r' := rfl
@[simp] theorem withRxQueue_self : s.withRxQueue s.rxQueue = s := rfl

end withRxQueue

section withOut
variable (s : State) (u : Outputs)

@[simp] theorem withOut_cfg : (s.withOut u).cfg = s.cfg := rfl
@[simp] theorem withOut_host : (s.withOut u).host = s.host := rfl
@[simp] theorem withOut_pend : (s.withOut u).pend = s.pend := rfl
@[simp] theorem withOut_ovh : (s.withOut u).ovh = s.ovh := rfl
@[simp] theorem withOut_pss : (s.withOut u).pss = s.pss := rfl
@[simp] theorem withOut_inputs : (s.withOut u).inputs = s.inputs := rfl
@[simp] theorem withOut_rxQueue : (s.withOut u).rxQueue = s.rxQueue := rfl
@[simp] theorem withOut_schedule : (s.withOut u).schedule = s.schedule := rfl
@[simp] theorem withOut_out : (s.withOut u).out = u := rfl

@[simp] theorem withOut_withOut (u' : Outputs) : (s.withOut u).withOut u' = s.withOut u' := rfl
@[simp] theorem withOut_self : s.withOut s.out = s := rfl

end withOut

/-- Two states are equal when their parts are. -/
theorem state_eq {s t : State} (hc : s.cfg = t.cfg) (hh : s.host = t.host) (hp : s.pend = t.pend)
    (ho : s.ovh = t.ovh) (hq : s.pss = t.pss) (hi : s.inputs = t.inputs) (hr : s.rxQueue = t.rxQueue)
    (hs : s.schedule = t.schedule) (hu : s.out = t.out) : s = t := by
  cases s; cases t; simp_all

end Sys2Proof.Machine
end

