-- ==== Sys2Proof/Laws/Ops.lean ====
section
/-! SUPPORT. What each shared operation can do, said once: the parts it leaves alone, and the values it writes. -/

namespace Sys2Proof.Machine

/-! ### Raising, completing, outputs: the part they touch and the parts they leave -/

section host
variable (s : State) (e : ErrorCode) (o : AckOutcome)

@[simp] theorem raise_eq : raise e s = { s with host := { s.host with err := e } } := rfl
@[simp] theorem complete_eq : complete s = { s with host := { s.host with err := .ok } } := rfl
@[simp] theorem setOutcome_eq : setOutcome o s = { s with host := { s.host with outcome := o } } := rfl

end host

section outputs
variable (s : State) (e : LogEvent) (b : List Byte) (t : Sticky) (w : Word)

@[simp] theorem emit_out_log : (emit e s).out.log = s.out.log ++ [e] := rfl
@[simp] theorem emit_out_sent : (emit e s).out.sent = s.out.sent := rfl
@[simp] theorem emit_out_responses : (emit e s).out.responses = s.out.responses := rfl
@[simp] theorem emit_cfg : (emit e s).cfg = s.cfg := rfl
@[simp] theorem emit_host : (emit e s).host = s.host := rfl
@[simp] theorem emit_pend : (emit e s).pend = s.pend := rfl
@[simp] theorem emit_ovh : (emit e s).ovh = s.ovh := rfl
@[simp] theorem emit_pss : (emit e s).pss = s.pss := rfl
@[simp] theorem emit_inputs : (emit e s).inputs = s.inputs := rfl
@[simp] theorem emit_rxQueue : (emit e s).rxQueue = s.rxQueue := rfl
@[simp] theorem emit_schedule : (emit e s).schedule = s.schedule := rfl

@[simp] theorem setSticky_pss : (setSticky t s).pss = { s.pss with sticky := t } := rfl
@[simp] theorem setSticky_cfg : (setSticky t s).cfg = s.cfg := rfl
@[simp] theorem setSticky_host : (setSticky t s).host = s.host := rfl
@[simp] theorem setSticky_pend : (setSticky t s).pend = s.pend := rfl
@[simp] theorem setSticky_ovh : (setSticky t s).ovh = s.ovh := rfl
@[simp] theorem setSticky_inputs : (setSticky t s).inputs = s.inputs := rfl
@[simp] theorem setSticky_rxQueue : (setSticky t s).rxQueue = s.rxQueue := rfl
@[simp] theorem setSticky_schedule : (setSticky t s).schedule = s.schedule := rfl
@[simp] theorem setSticky_out : (setSticky t s).out = s.out := rfl

/-- What `Send` does: the bytes join the trace with the transport's answer; a failure also sets
`STICKY.SEND_FAIL` and is logged (R197, R325). -/
theorem send_eq : send b s = { s with
    pss := if s.inputs.sendOk then s.pss
      else { s.pss with sticky := { s.pss.sticky with sendFail := true } }
    out := { s.out with
      sent := s.out.sent ++ [⟨b, s.inputs.sendOk⟩]
      log := if s.inputs.sendOk then s.out.log else s.out.log ++ [.sendFail] } } := by
  unfold send
  cases h : s.inputs.sendOk <;> simp [handToTransport, noteSendFail, emit, setSticky, State.withOut, State.withPss, h]

@[simp] theorem send_cfg : (send b s).cfg = s.cfg := by rw [send_eq]
@[simp] theorem send_host : (send b s).host = s.host := by rw [send_eq]
@[simp] theorem send_pend : (send b s).pend = s.pend := by rw [send_eq]
@[simp] theorem send_ovh : (send b s).ovh = s.ovh := by rw [send_eq]
@[simp] theorem send_inputs : (send b s).inputs = s.inputs := by rw [send_eq]
@[simp] theorem send_rxQueue : (send b s).rxQueue = s.rxQueue := by rw [send_eq]
@[simp] theorem send_schedule : (send b s).schedule = s.schedule := by rw [send_eq]
@[simp] theorem send_sent : (send b s).out.sent = s.out.sent ++ [⟨b, s.inputs.sendOk⟩] := by
  rw [send_eq]

/-- `Send` changes nothing of the sequencer but `STICKY.SEND_FAIL`. -/
theorem send_pss : (send b s).pss = { s.pss with
    sticky := { s.pss.sticky with sendFail := s.pss.sticky.sendFail || !s.inputs.sendOk } } := by
  rw [send_eq]
  cases h : s.inputs.sendOk <;> simp

end outputs

/-! ### Timers -/

/-- The draw of R193 lies in the closed window, and fits 32 bits by R7. -/
theorem idleDraw_window (c : Config) (rng : Word) :
    c.params.idleInterval - c.params.idleVariance ≤ idleDraw c.params rng ∧
      idleDraw c.params rng ≤ c.params.idleInterval + c.params.idleVariance ∧
      idleDraw c.params rng < 2 ^ 32 := by
  obtain ⟨p, ok⟩ := c
  have hm := Nat.mod_lt rng.toNat (show 0 < 2 * p.idleVariance + 1 by omega)
  have hw : p.timeWidth = 32 ∧ p.idleVariance ≤ p.idleInterval ∧
      p.idleInterval + p.idleVariance < 2 ^ p.timeWidth := by
    unfold Params.problem? at ok
    repeat' (split at ok; · cases ok)
    omega
  obtain ⟨h32, hle, hlt⟩ := hw
  rw [h32] at hlt
  simp only [idleDraw]
  omega

/-- R7: what every configuration satisfies. -/
theorem config_constraints (c : Config) :
    c.params.validPacketSize = 16 ∧ c.params.ackSizeBytes = 3 ∧ c.params.timeWidth = 32 ∧
      c.params.idleVariance ≤ c.params.idleInterval ∧
      c.params.idleInterval + c.params.idleVariance < 2 ^ 32 ∧ c.params.ackInterval < 2 ^ 32 ∧
      c.params.rangeExtenderInterval < 2 ^ 32 ∧ c.params.nodeRadioId < 2 ^ 7 := by
  obtain ⟨p, ok⟩ := c
  unfold Params.problem? at ok
  repeat' (split at ok; · cases ok)
  have h32 : p.timeWidth = 32 := by omega
  have hpow : 2 ^ p.timeWidth = 4294967296 := by rw [h32]; rfl
  dsimp only
  omega

/-- `enterIdle()` writes `ASTATE`, `IDLE_START` and `IDLE_DUR` and nothing else (R193). -/
theorem enterIdle_eq (s : State) : enterIdle s = { s with pss := { s.pss with
    astate := .idle, idleStart := s.inputs.now,
    idleDur := BitVec.ofNat 32 (idleDraw s.cfg.params s.inputs.rng) } } := rfl

/-- The drawn duration is stored exactly (R380). -/
theorem enterIdle_idleDur (s : State) :
    (enterIdle s).pss.idleDur.toNat = idleDraw s.cfg.params s.inputs.rng := by
  have h := (idleDraw_window s.cfg s.inputs.rng).2.2
  simp only [enterIdle_eq, BitVec.toNat_ofNat]
  omega

/-! ### The tracker -/

@[simp] theorem clearPending_eq (s : State) :
    clearPending s = { s with pend := PendingMessage.zero } := rfl

@[simp] theorem abortWait_eq (s : State) :
    abortWait s = { s with pend := PendingMessage.zero } := rfl

/-- `beginWait` with no entry opens one; with one it changes nothing (R231). -/
theorem beginWait_cases (rid mid : Nat) (t : Word) (s : State) :
    (s.pend.valid = true ∧ beginWait rid mid t s = .error .pendingExists) ∨
      (s.pend.valid = false ∧ beginWait rid mid t s = .ok { s with
        pend := ⟨true, BitVec.ofNat 15 rid, BitVec.ofNat 15 mid, t, 0⟩ }) := by
  unfold beginWait
  cases s.pend.valid <;> simp [State.withPend]

/-- `onAckReceived` clears a matching entry, and else changes nothing (R232). -/
theorem onAckReceived_cases (rid mid : Nat) (s : State) :
    (ackMatches rid mid s.pend = true ∧
        onAckReceived rid mid s = (.matched, { s with pend := PendingMessage.zero })) ∨
      (ackMatches rid mid s.pend = false ∧ onAckReceived rid mid s = (.none, s)) := by
  unfold onAckReceived
  cases ackMatches rid mid s.pend <;> simp

/-- `pollTimeout` clears a due entry, and else changes nothing (R233). -/
theorem pollTimeout_cases (t : Word) (s : State) :
    (ackDue t s = true ∧ pollTimeout t s = (.timeout, { s with pend := PendingMessage.zero })) ∨
      (ackDue t s = false ∧ pollTimeout t s = (.none, s)) := by
  unfold pollTimeout
  cases ackDue t s <;> simp

/-- An ACT command runs in STANDBY and raises Busy in ACTIVE (R239). -/
theorem whenStandby_cases (run : State → State) (s : State) :
    (s.pss.mode = .active ∧ whenStandby run s = raise .busy s) ∨
      (s.pss.mode = .standby ∧ whenStandby run s = run s) := by
  unfold whenStandby
  cases s.pss.mode <;> simp

/-! ### Fetching -/

theorem fetch_nil {s : State} (h : s.schedule = []) : fetch s = none := by simp [fetch, h]

theorem fetch_cons {s : State} {ev : Event} {rest : List Event} (h : s.schedule = ev :: rest) :
    fetch s = some (ev.signal, { s with schedule := rest, inputs := ev.inputs }) := by
  simp [fetch, h]

end Sys2Proof.Machine
end

