-- ==== Sys2Proof/Laws/PerInstr.lean ====
section
/-! SUPPORT. One lemma per instruction, about the instruction as syntax: its encoding drives the lines of its
table row's format (30_encoding.md R110 to R114, R340), and a frame form has the row's length (R100, R104). -/

namespace Sys2Proof.Laws

/-- The formats of the opcode table. -/
inductive RowFormat where
  | cmd
  | bus
  | strobe
  | reset
  | frame (bytes : Nat)
  deriving DecidableEq, Repr

/-- The format of the lines a signal drives. -/
def formatOfSignal : Signal → RowFormat
  | .command _ => .cmd
  | .bus _ _ => .bus
  | .strobe _ => .strobe
  | .resetLine => .reset
  | .wire b => .frame b.length

/-- The format the opcode table gives an instruction's row. -/
def formatOfRow : Instr → RowFormat
  | .nop => .cmd
  | .encodeBeacon => .cmd
  | .decodeBeacon => .cmd
  | .encodeAck => .cmd
  | .decodeAck => .cmd
  | .repackLegacy => .cmd
  | .getRadioId => .cmd
  | .getMessageId => .cmd
  | .beginWait => .cmd
  | .ackReceived => .cmd
  | .pollTimeout => .cmd
  | .abortWait => .cmd
  | .rd _ => .bus
  | .wr _ _ => .bus
  | .tick _ _ => .strobe
  | .edgeStandby _ => .strobe
  | .edgePanic => .strobe
  | .reset => .reset
  | .beaconLegacy _ => .frame 16
  | .beaconNew _ => .frame 16
  | .ackLegacy _ _ => .frame 3
  | .ackNew _ _ _ => .frame 3

/-- An instruction's encoding drives the lines of its row. -/
def DrivesItsLines.Statement (i : Instr) : Prop := formatOfSignal (encode i) = formatOfRow i

theorem DrivesItsLines.nop : DrivesItsLines.Statement .nop := rfl

theorem DrivesItsLines.encodeBeacon : DrivesItsLines.Statement .encodeBeacon := rfl

theorem DrivesItsLines.decodeBeacon : DrivesItsLines.Statement .decodeBeacon := rfl

theorem DrivesItsLines.encodeAck : DrivesItsLines.Statement .encodeAck := rfl

theorem DrivesItsLines.decodeAck : DrivesItsLines.Statement .decodeAck := rfl

theorem DrivesItsLines.repackLegacy : DrivesItsLines.Statement .repackLegacy := rfl

theorem DrivesItsLines.getRadioId : DrivesItsLines.Statement .getRadioId := rfl

theorem DrivesItsLines.getMessageId : DrivesItsLines.Statement .getMessageId := rfl

theorem DrivesItsLines.beginWait : DrivesItsLines.Statement .beginWait := rfl

theorem DrivesItsLines.ackReceived : DrivesItsLines.Statement .ackReceived := rfl

theorem DrivesItsLines.pollTimeout : DrivesItsLines.Statement .pollTimeout := rfl

theorem DrivesItsLines.abortWait : DrivesItsLines.Statement .abortWait := rfl

theorem DrivesItsLines.rd (index : BitVec 6) :
    DrivesItsLines.Statement (.rd index) := rfl

theorem DrivesItsLines.wr (index : BitVec 6) (data : Word) :
    DrivesItsLines.Statement (.wr index data) := rfl

theorem DrivesItsLines.tick (standbyEdge panicEdge : Bool) :
    DrivesItsLines.Statement (.tick standbyEdge panicEdge) := rfl

theorem DrivesItsLines.edgeStandby (panicEdge : Bool) :
    DrivesItsLines.Statement (.edgeStandby panicEdge) := rfl

theorem DrivesItsLines.edgePanic : DrivesItsLines.Statement .edgePanic := rfl

theorem DrivesItsLines.reset : DrivesItsLines.Statement .reset := rfl

theorem DrivesItsLines.beaconLegacy (fields : FieldSet) :
    DrivesItsLines.Statement (.beaconLegacy fields) := by simp [DrivesItsLines.Statement, formatOfSignal, formatOfRow, encode]

theorem DrivesItsLines.beaconNew (fields : FieldSet) :
    DrivesItsLines.Statement (.beaconNew fields) := by simp [DrivesItsLines.Statement, formatOfSignal, formatOfRow, encode]

theorem DrivesItsLines.ackLegacy (radioId messageId : Nat) :
    DrivesItsLines.Statement (.ackLegacy radioId messageId) := rfl

theorem DrivesItsLines.ackNew (radioId : Nat) (reserved : Bool) (messageId : Nat) :
    DrivesItsLines.Statement (.ackNew radioId reserved messageId) := rfl

end Sys2Proof.Laws
end

