-- ==== Sys2Proof/Tests/Slice0.lean ====
section
/-! SUPPORT. Small tests: what the well-formedness check and the configuration check refuse, the decoding of words
written out from 30_encoding.md, single steps on the vectors of 95_test_vectors.md, and, for every statement with
hypotheses, states that meet them clause by clause. -/

namespace Sys2Proof.Tests

open Sys2Proof.Machine Sys2Proof.Claims

/-! ### Material -/

/-- The state an outcome goes on with. -/
def after (o : Host.Outcome State Fault Refusal) : State :=
  match o with
  | .next t => t
  | .fault _ => State.reset
  | .refused _ => State.reset

/-- A buffer holding a frame. -/
def buffer (b : List Byte) : Buffer := padded b

/-- 95_test_vectors.md, the frame LEG. -/
def leg : List Byte :=
  [0x00, 0x05, 0x2A, 0x85, 0xEB, 0x14, 0x42, 0x0A, 0xD7, 0xA0, 0xC2, 0x58, 0x80, 0x5A, 0xBB, 0x64]

/-- 95_test_vectors.md, the frame NEWF. -/
def newf : List Byte :=
  [0x85, 0x00, 0x2A, 0x85, 0xEB, 0x14, 0x42, 0x0A, 0xD7, 0xA0, 0xC2, 0x58, 0x80, 0x5A, 0xBB, 0x64]

/-- 95_test_vectors.md V-E7, the bytes. -/
def frameE7 : List Byte :=
  [0x85, 0x92, 0x34, 0x85, 0xEB, 0x14, 0x42, 0x0A, 0xD7, 0xA0, 0xC2, 0x58, 0x80, 0x5A, 0xBB, 0x64]

/-- 95_test_vectors.md V-E6, the field set of LEG. -/
def legFields : FieldSet := ⟨0, 5, 0, 42, 0x4214EB85, 0xC2A0D70A, 88, 0x64BB5A80⟩

/-- 95_test_vectors.md V-E7, the field set. -/
def fieldsE7 : FieldSet := ⟨1, 5, 1, 0x1234, 0x4214EB85, 0xC2A0D70A, 88, 0x64BB5A80⟩

/-- A host port with these field registers. -/
def bank (format radioId panic messageId battery : Word) : HostPort :=
  { HostPort.zero with
    fFormat := format, fRadioId := radioId, fPanic := panic, fMessageId := messageId
    fBattery := battery }

/-- The reset state with a host port. -/
def withBank (h : HostPort) : State := { State.reset with host := h }

/-- The reset state with bytes in `FRAME`. -/
def withFrame (len : Word) (b : List Byte) : State :=
  { State.reset with host := { HostPort.zero with frameLen := len, frame := buffer b } }

/-- The reset state at a time. -/
def atTime (now : Word) (s : State) : State := { s with inputs := { s.inputs with now := now } }

/-- 95_test_vectors.md V-T1: the entry `(5, 42, 1000)`. -/
def pending : PendingMessage := ⟨true, 5, 42, 1000, 0⟩

/-- STANDBY with that entry and the ids of an ack. -/
def waiting (rid mid : Word) : State :=
  { withBank (bank 0 rid 0 mid 0) with pend := pending }

/-- ACTIVE in one of its states, `IDLE_DUR` drawn as 9000. -/
def active (a : ActiveState) : State :=
  { State.reset with pss := { Sequencer.zero with mode := .active, astate := a, idleDur := 9000 } }

/-- The same with the entry of V-T1. -/
def activeWaiting (a : ActiveState) : State := { active a with pend := pending }

/-- A configuration as `Config.default` but for relaying. -/
def relayConfig : Config := ⟨{ Params.default with supportsRelay := true }, by decide⟩

/-- A relay node in one of its states. -/
def relaying (a : ActiveState) : State := { active a with cfg := relayConfig }

/-- A relay node with an overheard frame. -/
def overheard (len : BitVec 5) (b : List Byte) : State :=
  { relaying .relay with ovh := ⟨true, len, buffer b⟩ }

/-- A frame waiting at the transport. -/
def receiving (b : List Byte) (s : State) : State := { s with rxQueue := [⟨b, []⟩] }

/-- The battery input. -/
def battery (p : Byte) (s : State) : State := { s with inputs := { s.inputs with battery := p } }

/-- The reset state with one event scheduled. -/
def driven (sig : Signal) : State := { State.reset with schedule := [⟨sig, Inputs.zero⟩] }

/-! ### The well-formedness check refuses an ill-formed term, check by check -/

theorem test_legacy_format_checked : (Instr.beaconLegacy ⟨1, 0, 0, 0, 0, 0, 0, 0⟩).wellFormed = false := by decide
theorem test_legacy_radioId_checked : (Instr.beaconLegacy ⟨0, 32768, 0, 0, 0, 0, 0, 0⟩).wellFormed = false := by decide
theorem test_legacy_panic_checked : (Instr.beaconLegacy ⟨0, 0, 1, 0, 0, 0, 0, 0⟩).wellFormed = false := by decide
theorem test_legacy_messageId_checked : (Instr.beaconLegacy ⟨0, 0, 0, 256, 0, 0, 0, 0⟩).wellFormed = false := by decide
theorem test_new_format_checked : (Instr.beaconNew ⟨0, 0, 0, 0, 0, 0, 0, 0⟩).wellFormed = false := by decide
theorem test_new_radioId_checked : (Instr.beaconNew ⟨1, 128, 0, 0, 0, 0, 0, 0⟩).wellFormed = false := by decide
theorem test_new_panic_checked : (Instr.beaconNew ⟨1, 0, 2, 0, 0, 0, 0, 0⟩).wellFormed = false := by decide
theorem test_new_messageId_checked : (Instr.beaconNew ⟨1, 0, 0, 32768, 0, 0, 0, 0⟩).wellFormed = false := by decide
theorem test_latitude_checked : (Instr.beaconNew ⟨1, 0, 0, 0, 0x100000000, 0, 0, 0⟩).wellFormed = false := by decide
theorem test_longitude_checked : (Instr.beaconLegacy ⟨0, 0, 0, 0, 0, 0x100000000, 0, 0⟩).wellFormed = false := by decide
theorem test_battery_checked : (Instr.beaconNew ⟨1, 0, 0, 0, 0, 0, 256, 0⟩).wellFormed = false := by decide
theorem test_utc_checked : (Instr.beaconLegacy ⟨0, 0, 0, 0, 0, 0, 0, 0x100000000⟩).wellFormed = false := by decide
theorem test_ackLegacy_radioId_checked : (Instr.ackLegacy 32768 0).wellFormed = false := by decide
theorem test_ackLegacy_messageId_checked : (Instr.ackLegacy 0 256).wellFormed = false := by decide
theorem test_ackNew_radioId_checked : (Instr.ackNew 128 false 0).wellFormed = false := by decide
theorem test_ackNew_messageId_checked : (Instr.ackNew 0 false 32768).wellFormed = false := by decide
theorem test_widest_forms_accepted :
    (Instr.beaconNew ⟨1, 127, 1, 32767, 0xFFFFFFFF, 0xFFFFFFFF, 255, 0xFFFFFFFF⟩).wellFormed = true ∧
      (Instr.ackLegacy 32767 255).wellFormed = true := by decide

/-! ### A configuration that breaks R7 is refused by name -/

theorem test_config_packetSize : { Params.default with validPacketSize := 17 }.problem? = some .packetSize := by decide
theorem test_config_ackSize : { Params.default with ackSizeBytes := 4 }.problem? = some .ackSize := by decide
theorem test_config_timeWidth : { Params.default with timeWidth := 16 }.problem? = some .timeWidth := by decide
theorem test_config_idleVariance : { Params.default with idleVariance := 10001 }.problem? = some .idleVariance := by decide
theorem test_config_idleRange :
    { Params.default with idleInterval := 4294966296 }.problem? = some .idleRange := by decide
theorem test_config_ackRange : { Params.default with ackInterval := 4294967296 }.problem? = some .ackRange := by decide
theorem test_config_relayRange :
    { Params.default with rangeExtenderInterval := 4294967296 }.problem? = some .relayRange := by decide
theorem test_config_radioId : { Params.default with nodeRadioId := 128 }.problem? = some .radioId := by decide

/-! ### Decoding: words written out from 30_encoding.md R101 to R104, R110, R111, R113, R114 -/

theorem test_decode_nop : decode (.command 0x00000000) = .ok .nop := by decide
theorem test_decode_encodeBeacon : decode (.command 0x00000001) = .ok .encodeBeacon := by decide
theorem test_decode_decodeBeacon : decode (.command 0x00000002) = .ok .decodeBeacon := by decide
theorem test_decode_encodeAck : decode (.command 0x00000003) = .ok .encodeAck := by decide
theorem test_decode_decodeAck : decode (.command 0x00000004) = .ok .decodeAck := by decide
theorem test_decode_repackLegacy : decode (.command 0x00000005) = .ok .repackLegacy := by decide
theorem test_decode_getRadioId : decode (.command 0x00000006) = .ok .getRadioId := by decide
theorem test_decode_getMessageId : decode (.command 0x00000007) = .ok .getMessageId := by decide
theorem test_decode_beginWait : decode (.command 0x00000008) = .ok .beginWait := by decide
theorem test_decode_ackReceived : decode (.command 0x00000009) = .ok .ackReceived := by decide
theorem test_decode_pollTimeout : decode (.command 0x0000000A) = .ok .pollTimeout := by decide
theorem test_decode_abortWait : decode (.command 0x0000000B) = .ok .abortWait := by decide
theorem test_decode_illegal_opcode : decode (.command 0x0000000C) = .error (.illegalCommand 0x0C) := by decide
theorem test_decode_illegal_reserved : decode (.command 0x00000100) = .error (.illegalCommand 0x100) := by decide
/-- P3 step 17: `RD PEND_SENTAT` is the address phase 0x22, `W` = 0. -/
theorem test_decode_rd : decode (.bus 0b0100010#7 0) = .ok (.rd 0x22) := by decide
/-- P1 step 4: `WR F_MESSAGE_ID, 0x1234` is the address phase 0x47, `W` = 1. -/
theorem test_decode_wr : decode (.bus 0b1000111#7 0x1234) = .ok (.wr 0x07 0x1234) := by decide
theorem test_decode_tick : decode (.strobe 0b001#3) = .ok (.tick false false) := by decide
theorem test_decode_tick_edges : decode (.strobe 0b111#3) = .ok (.tick true true) := by decide
theorem test_decode_edgeStandby : decode (.strobe 0b010#3) = .ok (.edgeStandby false) := by decide
theorem test_decode_edges : decode (.strobe 0b110#3) = .ok (.edgeStandby true) := by decide
theorem test_decode_edgePanic : decode (.strobe 0b100#3) = .ok .edgePanic := by decide
theorem test_decode_emptyStrobe : decode (.strobe 0b000#3) = .error .emptyStrobe := by decide
theorem test_decode_reset : decode .resetLine = .ok .reset := by decide
theorem test_decode_beaconLegacy : decode (.wire leg) = .ok (.beaconLegacy legFields) := by decide
theorem test_decode_beaconNew : decode (.wire frameE7) = .ok (.beaconNew fieldsE7) := by decide
theorem test_decode_ackLegacy : decode (.wire [0x00, 0x80, 0x2A]) = .ok (.ackLegacy 128 42) := by decide
theorem test_decode_ackNew : decode (.wire [0x85, 0x00, 0x2A]) = .ok (.ackNew 5 false 42) := by decide
theorem test_decode_ackNew_reserved : decode (.wire [0x85, 0x80, 0x2A]) = .ok (.ackNew 5 true 42) := by decide
theorem test_decode_other_length : decode (.wire [0x01, 0x02]) = .error (.frameLength [0x01, 0x02]) := by decide

/-! ### Single steps -/

/-- V-H4: NOP after an error. -/
theorem test_nop_clears_error :
    (after (exec .nop (raised .invalidSize State.reset))).host.err = .ok := by decide

/-- V-E7 through `FRAME`. -/
theorem test_encodeBeacon_vector :
    (after (exec .encodeBeacon (withBank { bank 1 5 1 0x1234 88 with
      fLatitude := 0x4214EB85, fLongitude := 0xC2A0D70A, fUtc := 0x64BB5A80 }))).host.frame =
      buffer frameE7 := by decide

/-- V-E9: a new `radioId` of 128. -/
theorem test_encodeBeacon_range :
    (after (exec .encodeBeacon (withBank (bank 1 128 0 0 0)))).host.err = .fieldRange := by decide

/-- V-D1: sixteen bytes FF. -/
theorem test_decodeBeacon_ones :
    operandFields (after (exec .decodeBeacon (withFrame 16 (List.replicate 16 0xFF)))).host =
      ⟨1, 127, 1, 0x7FFF, 0xFFFFFFFF, 0xFFFFFFFF, 255, 0xFFFFFFFF⟩ := by decide

/-- V-H8: a length of 17. -/
theorem test_decodeBeacon_size :
    (after (exec .decodeBeacon (withFrame 17 leg))).host.err = .invalidSize := by decide

/-- V-A3: a pair of the legacy form; `FRAME[3..15]` are kept. -/
theorem test_encodeAck_legacy :
    (after (exec .encodeAck { withFrame 16 leg with
      host := { (withFrame 16 leg).host with fRadioId := 128, fMessageId := 42 } })).host.frame =
      buffer ([0x00, 0x80, 0x2A] ++ leg.drop 3) := by decide

/-- V-A6: a pair of no form. -/
theorem test_encodeAck_range :
    (after (exec .encodeAck (withBank (bank 0 128 0 256 0)))).host.err = .fieldRange := by decide

/-- V-A7: the reserved bit is ignored. -/
theorem test_decodeAck_reserved :
    (after (exec .decodeAck (withFrame 3 [0x85, 0x80, 0x2A]))).host.fMessageId = 42 := by decide

/-- V-A9: the legacy form. -/
theorem test_decodeAck_legacy :
    (after (exec .decodeAck (withFrame 3 [0x7F, 0xFF, 0xFF]))).host.fRadioId = 0x7FFF := by decide

/-- V-R1, W1. -/
theorem test_repackLegacy_vector :
    (after (exec .repackLegacy (withFrame 16 leg))).host.frame = buffer newf := by decide

/-- R304: rid 200 and battery 150 report RadioIdOverflow. -/
theorem test_repackLegacy_precedence :
    (after (exec .repackLegacy (withFrame 16 [0x00, 0xC8, 0x07, 0, 0, 0, 0, 0, 0, 0, 0, 0x96]))).host.err =
      .radioIdOverflow := by decide

/-- V-G2. -/
theorem test_getRadioId_legacy :
    (after (exec .getRadioId (withFrame 16 (0x7F :: List.replicate 15 0xFF)))).host.fRadioId =
      0x7FFF := by decide

/-- V-G3: the panic bit is excluded. -/
theorem test_getMessageId_new :
    (after (exec .getMessageId (withFrame 16 frameE7))).host.fMessageId = 0x1234 := by decide

/-- V-T1. -/
theorem test_beginWait_opens :
    (after (exec .beginWait (atTime 1000 (withBank (bank 0 5 0 42 0))))).pend = pending := by decide

/-- V-T14: Busy comes before FieldRange. -/
theorem test_beginWait_busy :
    (after (exec .beginWait { active .idle with host := bank 0 0x8000 0 0 0 })).host.err = .busy := by decide

/-- V-T5. -/
theorem test_ackReceived_match :
    (after (exec .ackReceived (waiting 5 42))).host.outcome = .matched := by decide

/-- V-T3. -/
theorem test_ackReceived_mismatch : (after (exec .ackReceived (waiting 5 43))).pend = pending := by decide

/-- V-T7: the boundary is a timeout. -/
theorem test_pollTimeout_boundary :
    (after (exec .pollTimeout (atTime 6000 (waiting 0 0)))).host.outcome = .timeout := by decide

/-- V-T9: the clock wraps. -/
theorem test_pollTimeout_wrap :
    (after (exec .pollTimeout (atTime 0x388 { State.reset with
      pend := ⟨true, 5, 42, 0xFFFFF000, 0⟩ }))).host.outcome = .timeout := by decide

/-- V-T12. -/
theorem test_abortWait_clears : (after (exec .abortWait (waiting 0 0))).pend.valid = false := by decide

/-- V-S3: the STATUS word of an ACTIVE node awaiting its ack. -/
theorem test_rd_status :
    (after (exec (.rd 0x01) (activeWaiting .awaitAck))).out.responses = [0x2C0] := by decide

/-- V-H6: reserved indices read 0. -/
theorem test_rd_reserved : (after (exec (.rd 0x2F) State.reset)).out.responses = [0] := by decide

/-- V-H7: a byte register keeps the low byte. -/
theorem test_wr_byte : (after (exec (.wr 0x13 0x1FF) State.reset)).host.frame[3] = 0xFF := by decide

/-- V-H2. -/
theorem test_wr_illegal_command :
    (after (exec (.wr 0x00 0x100) State.reset)).host.err = .illegalCommand := by decide

/-- V-S15: an edge in the vector of a TICK is drained by it. -/
theorem test_tick_edge_with_tick :
    (after (exec (.tick true false) (atTime 50 { State.reset with
      inputs := { Inputs.zero with rng := 3 } }))).pss.idleDur = 9003 := by decide

/-- V-S5c, V-S5d: the ack timeout is inclusive. -/
theorem test_tick_timeout :
    (after (exec (.tick false false) (atTime 6000 (activeWaiting .awaitAck)))).pss.astate = .idle ∧
      (after (exec (.tick false false) (atTime 5999 (activeWaiting .awaitAck)))).pss.astate =
        .awaitAck := by decide

/-- V-S1: edges of one kind coalesce. -/
theorem test_edgeStandby_sets :
    (after (exec (.edgeStandby false) State.reset)).pss.reqStandby = true := by decide

/-- R211: `PANIC` itself waits for the TICK. -/
theorem test_edgePanic_waits : (after (exec .edgePanic State.reset)).pss.panic = false := by decide

/-- V-H1: the switch gives the mode. -/
theorem test_reset_active :
    composeStatus (after (exec .reset { State.reset with
      inputs := { Inputs.zero with switchActive := true } })) = 0x80 := by decide

/-- R341: reset discards a pending wait. -/
theorem test_reset_total : (after (exec .reset (activeWaiting .awaitAck))).pend.valid = false := by decide

/-- The frame of P6 step 1 arrives. -/
theorem test_beaconLegacy_arrives :
    (after (exec (.beaconLegacy legFields) State.reset)).rxQueue = [⟨leg, []⟩] := by decide

/-- V-E7 arrives. -/
theorem test_beaconNew_arrives :
    (after (exec (.beaconNew fieldsE7) State.reset)).rxQueue = [⟨frameE7, []⟩] := by decide

/-- V-A3 arrives. -/
theorem test_ackLegacy_arrives :
    (after (exec (.ackLegacy 128 42) State.reset)).rxQueue = [⟨[0x00, 0x80, 0x2A], []⟩] := by decide

/-- V-A2 arrives, with the reserved bit set. -/
theorem test_ackNew_arrives :
    (after (exec (.ackNew 127 true 0x7FFF) State.reset)).rxQueue = [⟨[0xFF, 0xFF, 0xFF], []⟩] := by decide

/-! ### Witnesses: for each statement, states that meet the hypotheses of each of its clauses, at the boundaries -/

/-- The widest new-format operands of R141, and the widest legacy ones. -/
def widestNew : HostPort := bank 1 127 1 32767 100
def widestLegacy : HostPort := bank 0 32767 0 255 100

theorem witness_EncodeBeaconPacksFields :
    NewInRange (withBank widestNew).host ∧ LegacyInRange (withBank widestLegacy).host ∧
      (¬NewInRange (bank 1 128 0 0 0) ∧ ¬LegacyInRange (bank 1 128 0 0 0)) ∧
      (¬NewInRange (bank 0 0 0 0 101) ∧ ¬LegacyInRange (bank 0 0 0 0 101)) := by
  unfold NewInRange LegacyInRange; decide

theorem witness_DecodeBeaconUnpacksFrame :
    ((withFrame 16 newf).host.frameLen = 16 ∧ (withFrame 16 newf).host.frame[0].getLsbD 7 = true) ∧
      ((withFrame 16 leg).host.frameLen = 16 ∧ (withFrame 16 leg).host.frame[0].getLsbD 7 = false) ∧
      (withFrame 15 leg).host.frameLen ≠ 16 ∧ (withFrame 17 leg).host.frameLen ≠ 16 := by decide

theorem witness_EncodeAckPacksPair :
    (withBank widestNew).cfg.params.ackLayout = .headerForm ∧
      (widestNew.fRadioId.toNat < 128 ∧ widestNew.fMessageId.toNat < 32768) ∧
      (128 ≤ widestLegacy.fRadioId.toNat ∧ widestLegacy.fRadioId.toNat < 32768 ∧
        widestLegacy.fMessageId.toNat < 256) ∧
      (128 ≤ (bank 0 128 0 0 0).fRadioId.toNat ∧ (bank 0 128 0 0 0).fRadioId.toNat < 32768 ∧
        (bank 0 128 0 0 0).fMessageId.toNat < 256) ∧
      ¬((bank 0 128 0 256 0).fRadioId.toNat < 128 ∧ (bank 0 128 0 256 0).fMessageId.toNat < 32768) ∧
      ¬((bank 0 128 0 256 0).fRadioId.toNat < 32768 ∧ (bank 0 128 0 256 0).fMessageId.toNat < 256) := by
  decide

theorem witness_DecodeAckUnpacksPair :
    (withFrame 3 newf).cfg.params.ackLayout = .headerForm ∧
      ((withFrame 3 newf).host.frameLen = 3 ∧ (withFrame 3 newf).host.frame[0].getLsbD 7 = true) ∧
      ((withFrame 3 leg).host.frameLen = 3 ∧ (withFrame 3 leg).host.frame[0].getLsbD 7 = false) ∧
      (withFrame 16 leg).host.frameLen ≠ 3 := by decide

theorem witness_AckLayoutIsReplaceable :
    ((withBank widestNew).host.fRadioId.toNat < 128 ∧ (withBank widestNew).host.fMessageId.toNat < 32768) ∧
      ((withBank widestLegacy).host.fRadioId.toNat < 32768 ∧
        (withBank widestLegacy).host.fMessageId.toNat < 256) := by decide

/-- A legacy frame with a radio id in two bytes and a battery byte. -/
def legacyWith (hi lo bat : Byte) : List Byte := [hi, lo, 0, 0, 0, 0, 0, 0, 0, 0, 0, bat, 0, 0, 0, 0]

theorem witness_RepackRewritesHeader :
    (withFrame 15 leg).host.frameLen ≠ 16 ∧ (withFrame 16 newf).host.frame[0].getLsbD 7 = true ∧
      ((withFrame 16 (legacyWith 0 128 0)).host.frame[0].getLsbD 7 = false ∧
        128 ≤ (withFrame 16 (legacyWith 0 128 0)).host.frame[1].toNat) ∧
      ((withFrame 16 (legacyWith 1 0 0)).host.frame[0].getLsbD 7 = false ∧
        (withFrame 16 (legacyWith 1 0 0)).host.frame[0] ≠ 0) ∧
      ((withFrame 16 (legacyWith 0 127 101)).host.frame[0] = 0 ∧
        (withFrame 16 (legacyWith 0 127 101)).host.frame[1].toNat < 128 ∧
        100 < (withFrame 16 (legacyWith 0 127 101)).host.frame[11].toNat) ∧
      (withFrame 16 (legacyWith 0 127 100)).host.frameLen = 16 ∧
      Repackable (withFrame 16 (legacyWith 0 127 100)).host.frame := by
  unfold Repackable; decide

theorem witness_AccessorsReadOneField :
    (withFrame 3 leg).host.frameLen ≠ 16 ∧ (withFrame 16 leg).host.frameLen = 16 := by decide

theorem witness_NewFormatRoundTrip :
    inRange ⟨1, 127, 1, 32767, 0xFFFFFFFF, 0, 100, 0xFFFFFFFF⟩ = true := by decide

theorem witness_LegacyRoundTrip :
    inRange ⟨0, 32767, 0, 255, 0xFFFFFFFF, 0, 100, 0xFFFFFFFF⟩ = true ∧
      (buffer (legacyWith 0x7F 0xFF 255))[0].getLsbD 7 = false := by decide

theorem witness_FrameRoundTrip :
    ((legacyWith 0 0 100).length = 16 ∧ ((legacyWith 0 0 100).getD 11 0).toNat ≤ 100) ∧
      ((legacyWith 0 0 101).length = 16 ∧ 100 < ((legacyWith 0 0 101).getD 11 0).toNat) := by decide

theorem witness_FormatBitSelectsLayout :
    (decodeBeacon (buffer frameE7).toList = .ok fieldsE7 ∧ (buffer frameE7)[0].getLsbD 7 = true) ∧
      (decodeBeacon (buffer leg).toList = .ok legFields ∧ (buffer leg)[0].getLsbD 7 = false) := by decide

theorem witness_RepackPreservesFields : repackLegacy leg = .ok newf := by decide

theorem witness_AckRoundTrip : encodeAck .headerForm 127 32767 = .ok [0xFF, 0x7F, 0xFF] := by decide

theorem witness_AckOfDecodedBeacon : (withFrame 16 leg).host.frameLen = 16 := by decide

theorem witness_BeginWaitOpensEntry :
    (active .idle).pss.mode = .active ∧
      ((withBank (bank 0 32768 0 0 0)).pss.mode = .standby ∧
        32768 ≤ (withBank (bank 0 32768 0 0 0)).host.fRadioId.toNat) ∧
      ((waiting 32767 32767).pss.mode = .standby ∧ (waiting 32767 32767).host.fRadioId.toNat < 32768 ∧
        (waiting 32767 32767).host.fMessageId.toNat < 32768 ∧ (waiting 32767 32767).pend.valid = true) ∧
      ((withBank (bank 0 32767 0 32767 0)).pss.mode = .standby ∧
        (withBank (bank 0 32767 0 32767 0)).host.fRadioId.toNat < 32768 ∧
        (withBank (bank 0 32767 0 32767 0)).host.fMessageId.toNat < 32768 ∧
        (withBank (bank 0 32767 0 32767 0)).pend.valid = false) := by decide

theorem witness_AckReceivedMatches :
    (active .idle).pss.mode = .active ∧
      ((waiting 5 42).pss.mode = .standby ∧ (waiting 5 42).pend.valid = true ∧
        (waiting 5 42).host.fRadioId = (waiting 5 42).pend.radioId.setWidth 32 ∧
        (waiting 5 42).host.fMessageId = (waiting 5 42).pend.messageId.setWidth 32) ∧
      ((waiting 0x8005 42).pss.mode = .standby ∧
        ¬((waiting 0x8005 42).pend.valid = true ∧
          (waiting 0x8005 42).host.fRadioId = (waiting 0x8005 42).pend.radioId.setWidth 32 ∧
          (waiting 0x8005 42).host.fMessageId = (waiting 0x8005 42).pend.messageId.setWidth 32)) := by
  decide

theorem witness_PollTimeoutDetects :
    (active .idle).pss.mode = .active ∧
      ((waiting 0 0).pss.mode = .standby ∧ (waiting 0 0).pend.valid = true ∧
        Due (atTime 6000 (waiting 0 0)) (waiting 0 0).pend.sentAt 5000) ∧
      ¬Due (atTime 5999 (waiting 0 0)) (waiting 0 0).pend.sentAt 5000 ∧
      State.reset.pss.mode = .standby ∧ State.reset.pend.valid = false := by
  unfold Due; decide

theorem witness_AbortWaitClears :
    (active .idle).pss.mode = .active ∧ (waiting 0 0).pss.mode = .standby := by decide

theorem witness_WrStoresOrIssues :
    (11#32).toNat = commandNumber .abortWait ∧ 11 < (12#32).toNat ∧
      (0x10 ≤ (0x10#6).toNat ∧ (0x10#6).toNat ≤ 0x1F) ∧ (0x10 ≤ (0x1F#6).toNat ∧ (0x1F#6).toNat ≤ 0x1F) ∧
      (0x0C ≤ (0x0C#6).toNat ∧ (0x0C#6).toNat ≤ 0x0F) ∧ 0x20 ≤ (0x20#6).toNat ∧
      0x20 ≤ (0x3F#6).toNat := by decide

theorem witness_RaiseIsPrecise :
    exec (Command.decodeBeacon).toInstr State.reset = .next (raised .invalidSize State.reset) ∧
      (raised .invalidSize State.reset).host.err ≠ .ok := ⟨rfl, by decide⟩

theorem witness_ErrorsByCommand : ∀ c, (12#32).toNat ≠ commandNumber c := by
  intro c; cases c <;> decide

theorem witness_CommandsLeaveSequencer :
    isTracker .encodeBeacon = false ∧ isTracker .beginWait = true ∧ (active .idle).pss.mode = .active := by
  decide

theorem witness_EdgesCoalesce :
    (∃ t, exec (.edgeStandby false) State.reset = .next t) ∧
      ∃ t, exec .edgePanic State.reset = .next t := ⟨⟨_, rfl⟩, ⟨_, rfl⟩⟩

theorem witness_TickInStandby :
    State.reset.pss.mode = .standby ∧ toggles false State.reset = false := by decide

theorem witness_ToggleCancelsWork :
    (activeWaiting .awaitAck).pss.mode = .active ∧
      toggles true (activeWaiting .awaitAck) = true := by decide

theorem witness_ToggleEntersActive :
    State.reset.pss.mode = .standby ∧ toggles true State.reset = true := by decide

/-- In ACTIVE/IDLE a panic edge, an idle timer due, a relay timer due with the idle timer not, neither due. -/
theorem witness_IdleStep :
    (Steps false (active .idle) ∧ (beforeStep true (active .idle)).pss.panicPending = true) ∧
      (Steps false (atTime 9000 (active .idle)) ∧
        (beforeStep false (atTime 9000 (active .idle))).pss.panicPending = false ∧
        Due (atTime 9000 (active .idle)) 0 9000) ∧
      (Steps false (atTime 5000 (relaying .idle)) ∧
        (beforeStep false (atTime 5000 (relaying .idle))).pss.panicPending = false ∧
        ¬Due (atTime 5000 (relaying .idle)) 0 9000 ∧ (relaying .idle).cfg.params.supportsRelay = true ∧
        Due (atTime 5000 (relaying .idle)) 0 5000) ∧
      (¬Due (atTime 4999 (relaying .idle)) 0 9000 ∧ ¬Due (atTime 4999 (relaying .idle)) 0 5000) := by
  unfold Steps Due; decide

theorem witness_TransmitStep :
    (Steps false (battery 101 (active .transmit)) ∧ (active .transmit).pss.astate = .transmit ∧
        100 < (battery 101 (active .transmit)).inputs.battery.toNat) ∧
      (Steps false (battery 100 (active .transmit)) ∧
        (battery 100 (active .transmit)).inputs.battery.toNat ≤ 100 ∧
        (beforeStep false (battery 100 (active .transmit))).pend.valid = false) ∧
      (Steps false (activeWaiting .transmit) ∧
        (beforeStep false (activeWaiting .transmit)).pend.valid = true) := by
  unfold Steps; decide

theorem witness_AwaitAckStep :
    (Steps false (receiving [0x85, 0x00, 0x2A] (activeWaiting .awaitAck)) ∧
        (activeWaiting .awaitAck).pss.astate = .awaitAck ∧
        (beforeStep false (receiving [0x85, 0x00, 0x2A] (activeWaiting .awaitAck))).pend.valid = false) ∧
      ((beforeStep false (atTime 6000 (activeWaiting .awaitAck))).pend.valid = true ∧
        Due (atTime 6000 (activeWaiting .awaitAck)) 1000 5000) ∧
      ((beforeStep false (atTime 5999 (activeWaiting .awaitAck))).pend.valid = true ∧
        ¬Due (atTime 5999 (activeWaiting .awaitAck)) 1000 5000) := by
  unfold Steps Due; decide

theorem witness_RelayStep :
    (Steps false (relaying .relay) ∧ (relaying .relay).pss.astate = .relay ∧
        (beforeStep false (relaying .relay)).ovh.valid = false) ∧
      ((beforeStep false (overheard 16 (legacyWith 0 127 100))).ovh.valid = true ∧
        (beforeStep false (overheard 16 (legacyWith 0 127 100))).ovh.len = 16 ∧
        (beforeStep false (overheard 16 (legacyWith 0 127 100))).ovh.bytes[0].getLsbD 7 = false ∧
        Repackable (beforeStep false (overheard 16 (legacyWith 0 127 100))).ovh.bytes) ∧
      ((beforeStep false (overheard 16 (legacyWith 0 128 0))).ovh.bytes[0].getLsbD 7 = false ∧
        ¬Repackable (beforeStep false (overheard 16 (legacyWith 0 128 0))).ovh.bytes) ∧
      ((beforeStep false (overheard 3 leg)).ovh.valid = true ∧
        ¬((beforeStep false (overheard 3 leg)).ovh.len = 16)) ∧
      ¬((beforeStep false (overheard 16 newf)).ovh.bytes[0].getLsbD 7 = false) := by
  unfold Steps Repackable; decide

/-- A safe state that is about to transmit. -/
theorem safe_active_transmit : Safe (battery 100 (active .transmit)) where
  standbyQuiet := by unfold StandbyQuiet; decide
  singleOutstanding := by unfold SingleOutstanding; decide
  pendingClean := by unfold PendingClean; decide
  relayGated := by unfold RelayGated; decide
  overheardShaped := ⟨fun _ => rfl, fun h => absurd h (by decide)⟩
  idleDurDrawn := by unfold IdleDurDrawn InIdleWindow; decide
  fixBeforeValid := by unfold FixBeforeValid; decide
  seqPendingClear := by unfold SeqPendingClear; decide

/-- The hypotheses of TickTransitions, SendAtMostOncePerTick, StepKeepsSafe and RunsStaySafe. -/
theorem witness_Safe : Safe (battery 100 (active .transmit)) := safe_active_transmit

theorem witness_TransmittedBeaconDecodes :
    Safe (battery 100 (active .transmit)) ∧ Steps false (battery 100 (active .transmit)) ∧
      (battery 100 (active .transmit)).pss.astate = .transmit ∧
      (battery 100 (active .transmit)).inputs.battery.toNat ≤ 100 :=
  ⟨safe_active_transmit, by unfold Steps; decide⟩

/-- The later state of AckEndsTheWait: a fix, a panic edge and a failure came in between, and the ack of the beacon
waits at the transport. -/
theorem witness_AckEndsTheWait :
    (Safe (battery 100 (active .transmit)) ∧ Steps false (battery 100 (active .transmit)) ∧
        (active .transmit).pss.astate = .transmit ∧
        (battery 100 (active .transmit)).inputs.battery.toNat ≤ 100) ∧
      encodeAck (active .transmit).cfg.params.ackLayout 5 0 = .ok [0x85, 0x00, 0x00] ∧
      let t := after (exec (.tick false false) (battery 100 (active .transmit)))
      let u := receiving [0x85, 0x00, 0x00] { atTime 4999 t with pss := { t.pss with
        fixLat := 1, fixValid := true, reqPanic := true
        sticky := { t.pss.sticky with rxInvalidSize := true } } }
      u.cfg = t.cfg ∧ u.pend = t.pend ∧ u.pss.mode = t.pss.mode ∧ u.pss.astate = t.pss.astate ∧
        u.pss.reqStandby = t.pss.reqStandby ∧
        ∃ f rest, u.rxQueue = f :: rest ∧ f.bytes = [0x85, 0x00, 0x00] :=
  ⟨⟨safe_active_transmit, by unfold Steps; decide, rfl, by decide⟩,
    by decide, rfl, rfl, rfl, rfl, rfl, ⟨_, _, rfl, rfl⟩⟩

theorem witness_ResetSetsEverything :
    State.reset.inputs.switchActive = false ∧
      { State.reset with inputs := { Inputs.zero with switchActive := true } }.inputs.switchActive =
        true := by decide

theorem witness_LegacyFormsArrive :
    FieldSet.fitsLegacy ⟨0, 32767, 0, 255, 0xFFFFFFFF, 0xFFFFFFFF, 255, 0xFFFFFFFF⟩ = true ∧
      32767 < 32768 ∧ 255 < 256 := by decide

theorem witness_NewFormsArrive :
    FieldSet.fitsNew ⟨1, 127, 1, 32767, 0xFFFFFFFF, 0xFFFFFFFF, 255, 0xFFFFFFFF⟩ = true ∧
      127 < 128 ∧ 32767 < 32768 := by decide

theorem witness_DecodeEncode : (Instr.beaconNew fieldsE7).wellFormed = true := by decide

/-- A read whose data word is not zero, and a frame. -/
theorem witness_EncodeDecode :
    decode (.bus 0x22 7) = .ok (.rd 0x22) ∧ decode (.wire newf) = .ok (.beaconNew ⟨1, 5, 0, 42,
      0x4214EB85, 0xC2A0D70A, 88, 0x64BB5A80⟩) := by decide

theorem witness_StepRunsDecoded :
    (driven (.strobe 1)).schedule = ⟨.strobe 1, Inputs.zero⟩ :: [] ∧
      decode (.strobe 1) = .ok (.tick false false) := by decide

theorem witness_StepWithoutInstruction :
    (11 < (12#32).toNat ∧ (driven (.command 12)).schedule = ⟨.command 12, Inputs.zero⟩ :: []) ∧
      ((driven (.wire [1, 2])).schedule = ⟨.wire [1, 2], Inputs.zero⟩ :: []) ∧
      (driven (.strobe 0)).schedule = ⟨.strobe 0, Inputs.zero⟩ :: [] ∧ State.reset.schedule = [] := by
  decide

theorem witness_FetchWordRunsNext : decodeTableWord 32 0x0A = some .pollTimeout := by decide

theorem witness_ConfigurationIsFixed : step State.reset = .next State.reset := rfl

theorem witness_ModeChangesOnlyByToggle :
    (after (exec (.tick true false) State.reset)).pss.mode ≠ State.reset.pss.mode := by decide

theorem witness_StickyBitsAccumulate :
    Instr.tick false false ≠ .reset ∧
      { State.reset with pss := { Sequencer.zero with
        sticky := ⟨true, true, false, true, true⟩ } }.pss.sticky.sendFail = true := by decide

/-- A start just before the wrap of `now`, a time just after it, and an entry opened at that start. -/
theorem witness_TimersSurviveWrap :
    4294967295 ≤ 4294967300 ∧ 4294967300 - 4294967295 < 2 ^ 32 ∧
      (atTime 4 { State.reset with pend := ⟨true, 5, 42, 0xFFFFFFFF, 0⟩ }).inputs.now =
        BitVec.ofNat 32 4294967300 ∧
      (atTime 4 { State.reset with pend := ⟨true, 5, 42, 0xFFFFFFFF, 0⟩ }).pend.valid = true ∧
      (atTime 4 { State.reset with pend := ⟨true, 5, 42, 0xFFFFFFFF, 0⟩ }).pend.sentAt =
        BitVec.ofNat 32 4294967295 := by decide

end Sys2Proof.Tests
end

section
/-! SUPPORT. Proofs of the statements cited from 00_scope.md: one step and its schedule (R12, R80), the timers (R10),
the constraints of a configuration (R7), and the configuration under every step (R6, R90). -/

namespace Sys2Proof.Machine

/-! ### One step, by its schedule -/

theorem step_of_schedule_nil {s : State} (h : s.schedule = []) : step s = .next s := by
  simp [step, fetch_nil h]

theorem step_of_decode_ok {s : State} {ev : Event} {rest : List Event} {i : Instr}
    (hs : s.schedule = ev :: rest) (hd : decode ev.signal = .ok i) :
    step s = exec i { s with schedule := rest, inputs := ev.inputs } := by
  simp [step, fetch_cons hs, hd]

theorem step_of_decode_error {s : State} {ev : Event} {rest : List Event} {e : DecodeError}
    (hs : s.schedule = ev :: rest) (hd : decode ev.signal = .error e) :
    step s = .next (takeUndecoded e { s with schedule := rest, inputs := ev.inputs }) := by
  simp [step, fetch_cons hs, hd]

theorem decodeTableWord_eq_some_iff (nbits w : Nat) (i : Instr) :
    decodeTableWord nbits w = some i ↔ decode (signalOfTableWord nbits w) = .ok i := by
  unfold decodeTableWord
  cases decode (signalOfTableWord nbits w) <;> simp [Except.toOption]

/-- Settles O45: the branch of `step` for a signal that decodes. -/
theorem stepRunsDecoded : Obligations.StepRunsDecoded :=
  fun _ _ _ _ hs hd => step_of_decode_ok hs hd

/-- Settles O47: the word's event is the head of the schedule, and taking it off again, under the same ports,
gives back the state. -/
theorem fetchWordRunsNext : Obligations.FetchWordRunsNext := by
  intro s nbits w i h
  have hd : decode (signalOfTableWord nbits w) = .ok i := (decodeTableWord_eq_some_iff nbits w i).mp h
  have hs : (s.withFetchWord nbits w).schedule = ⟨signalOfTableWord nbits w, s.inputs⟩ :: s.schedule := rfl
  exact step_of_decode_ok hs hd

/-! ### Timers -/

/-- R10: subtraction modulo 2^32 gives the true distance of two times less than 2^32 apart. -/
theorem elapsedAt_ofNat {started time : Nat} (hle : started ≤ time) (hlt : time - started < 2 ^ 32) :
    elapsedAt (BitVec.ofNat 32 time) (BitVec.ofNat 32 started) = time - started := by
  simp only [elapsedAt, BitVec.toNat_sub, BitVec.toNat_ofNat]
  omega

theorem timerDue_iff (s : State) (t0 : Word) (interval : Nat) :
    timerDue s t0 interval = true ↔ interval ≤ elapsedAt s.inputs.now t0 := by
  simp [timerDue]

theorem ackDue_iff (t : Word) (s : State) :
    ackDue t s = true ↔
      s.pend.valid = true ∧ s.cfg.params.ackInterval ≤ elapsedAt t s.pend.sentAt := by
  simp [ackDue]

/-- Settles O55: both comparisons are against `elapsedAt`, which `elapsedAt_ofNat` gives as the true distance. -/
theorem timersSurviveWrap : Obligations.TimersSurviveWrap := by
  intro s started time hle hlt hnow
  have helapsed : elapsedAt s.inputs.now (BitVec.ofNat 32 started) = time - started := by
    rw [hnow, elapsedAt_ofNat hle hlt]
  constructor
  · intro interval
    rw [timerDue_iff, helapsed]
  · intro hvalid hsent
    rw [ackDue_iff, hsent, helapsed]
    exact and_iff_right hvalid

end Sys2Proof.Machine

/-! ### The constraints of a configuration -/

namespace Sys2Proof

/-- R7 and the width of D3 (log 10): what it takes to break no constraint. -/
theorem Params.problem?_eq_none_iff (p : Params) : p.problem? = none ↔
    (p.validPacketSize = 16 ∧ p.ackSizeBytes = 3 ∧ p.idleVariance ≤ p.idleInterval ∧
      p.idleInterval + p.idleVariance < 2 ^ p.timeWidth ∧ p.ackInterval < 2 ^ p.timeWidth ∧
      p.rangeExtenderInterval < 2 ^ p.timeWidth ∧ p.nodeRadioId < 2 ^ 7 ∧ p.timeWidth = 32) := by
  constructor
  · intro ok
    obtain ⟨hsize, hack, hwidth, hvar, hidle, hackR, hrelay, hid⟩ := Machine.config_constraints ⟨p, ok⟩
    rw [hwidth]
    exact ⟨hsize, hack, hvar, hidle, hackR, hrelay, hid, rfl⟩
  · rintro ⟨hsize, hack, hvar, hidle, hackR, hrelay, hid, hwidth⟩
    rw [hwidth] at hidle hackR hrelay
    simp only [Params.problem?, hsize, hack, hwidth, not_lt.mpr hvar, not_le.mpr hidle,
      not_le.mpr hackR, not_le.mpr hrelay, not_le.mpr hid, ne_eq, not_true_eq_false, if_false]

/-- The builder answers a configuration with exactly the given parameters, and only if they break no constraint. -/
theorem Config.ofParams_eq_ok_iff (p : Params) (c : Config) :
    Config.ofParams p = .ok c ↔ p.problem? = none ∧ c.params = p := by
  unfold Config.ofParams
  split
  · next ok =>
    constructor
    · rintro ⟨⟩
      exact ⟨ok, rfl⟩
    · rintro ⟨-, rfl⟩
      rfl
  · next e he => simp [he]

/-- Settles O56. -/
theorem configurationsMeetConstraints : Obligations.ConfigurationsMeetConstraints := by
  intro p
  rw [← Params.problem?_eq_none_iff]
  constructor
  · rintro ⟨c, hc, -⟩
    exact ((Config.ofParams_eq_ok_iff p c).mp hc).1
  · intro ok
    exact ⟨⟨p, ok⟩, (Config.ofParams_eq_ok_iff p ⟨p, ok⟩).mpr ⟨ok, rfl⟩, rfl⟩

end Sys2Proof

namespace Sys2Proof.Machine

/-! ### The configuration under the shared operations -/

section cfg
variable (s : State)

@[simp] theorem enterIdle_cfg : (enterIdle s).cfg = s.cfg := rfl
@[simp] theorem respond_cfg (w : Word) : (respond w s).cfg = s.cfg := rfl
@[simp] theorem storeFrame_cfg (b : List Byte) : (storeFrame b s).cfg = s.cfg := rfl
@[simp] theorem clearOverheard_cfg : (clearOverheard s).cfg = s.cfg := rfl
@[simp] theorem storeOverheard_cfg (b : List Byte) : (storeOverheard b s).cfg = s.cfg := rfl
@[simp] theorem frameArrives_cfg (b : List Byte) : (frameArrives b s).cfg = s.cfg := rfl
@[simp] theorem clearBlock_cfg : (clearBlock s).cfg = s.cfg := rfl

@[simp] theorem onAckReceived_cfg (rid mid : Nat) : (onAckReceived rid mid s).2.cfg = s.cfg := by
  obtain ⟨-, h⟩ | ⟨-, h⟩ := onAckReceived_cases rid mid s <;> rw [h]

@[simp] theorem pollTimeout_cfg (t : Word) : (pollTimeout t s).2.cfg = s.cfg := by
  obtain ⟨-, h⟩ | ⟨-, h⟩ := pollTimeout_cases t s <;> rw [h]

theorem whenStandby_cfg {run : State → State} (h : (run s).cfg = s.cfg) :
    (whenStandby run s).cfg = s.cfg := by
  obtain ⟨-, hw⟩ | ⟨-, hw⟩ := whenStandby_cases run s
  · simp [hw]
  · rw [hw, h]

@[simp] theorem takeUndecoded_cfg (e : DecodeError) : (takeUndecoded e s).cfg = s.cfg := by
  cases e <;> rfl

/-! ### The configuration under the phases of a TICK -/

@[simp] theorem latchStandbyEdge_cfg (b : Bool) : (latchStandbyEdge b s).cfg = s.cfg := rfl
@[simp] theorem latchPanicEdge_cfg (b : Bool) : (latchPanicEdge b s).cfg = s.cfg := rfl
@[simp] theorem drainRequests_cfg : (drainRequests s).cfg = s.cfg := rfl
@[simp] theorem enterStandby_cfg : (enterStandby s).cfg = s.cfg := rfl
@[simp] theorem enterActive_cfg : (enterActive s).cfg = s.cfg := rfl
@[simp] theorem setActiveState_cfg (a : ActiveState) : (setActiveState a s).cfg = s.cfg := rfl
@[simp] theorem failTransmit_cfg : (failTransmit s).cfg = s.cfg := rfl
@[simp] theorem finishTransmit_cfg : (finishTransmit s).cfg = s.cfg := rfl
@[simp] theorem rxInvalid_cfg (n : Nat) : (rxInvalid n s).cfg = s.cfg := rfl

@[simp] theorem standbyPhase_cfg (b : Bool) : (standbyPhase b s).cfg = s.cfg := by
  simp only [standbyPhase]
  split_ifs <;> simp

@[simp] theorem panicPhase_cfg (b : Bool) : (panicPhase b s).cfg = s.cfg := by
  cases b <;> rfl

@[simp] theorem gpsPhase_cfg : (gpsPhase s).cfg = s.cfg := by
  unfold gpsPhase
  split
  · split_ifs <;> simp
  · rfl

@[simp] theorem rxBeacon_cfg (b : List Byte) : (rxBeacon b s).cfg = s.cfg := by
  unfold rxBeacon
  split_ifs <;> simp

@[simp] theorem rxAck_cfg (b : List Byte) : (rxAck b s).cfg = s.cfg := by
  unfold rxAck
  split
  · rfl
  · dsimp only
    split_ifs <;> simp

@[simp] theorem takeFrame_cfg (b : List Byte) : (takeFrame b s).cfg = s.cfg := by
  unfold takeFrame
  split_ifs <;> simp

@[simp] theorem receivePhase_cfg : (receivePhase s).cfg = s.cfg := by
  unfold receivePhase
  split <;> simp

@[simp] theorem stepIdle_cfg : (stepIdle s).cfg = s.cfg := by
  unfold stepIdle
  split_ifs <;> simp

@[simp] theorem startWait_cfg : (startWait s).cfg = s.cfg := by
  unfold startWait
  obtain ⟨-, h⟩ | ⟨-, h⟩ :=
    beginWait_cases s.cfg.params.nodeRadioId s.pss.msgCounter.toNat s.inputs.now s <;> simp [h]

@[simp] theorem stepTransmit_cfg : (stepTransmit s).cfg = s.cfg := by
  unfold stepTransmit
  split <;> simp

@[simp] theorem stepAwaitAck_cfg : (stepAwaitAck s).cfg = s.cfg := by
  simp only [stepAwaitAck]
  split_ifs <;> simp

@[simp] theorem forwardOverheard_cfg : (forwardOverheard s).cfg = s.cfg := by
  unfold forwardOverheard
  split_ifs
  · split <;> simp
  · rfl

@[simp] theorem stepRelay_cfg : (stepRelay s).cfg = s.cfg := by
  simp [stepRelay]

@[simp] theorem stepPhase_cfg : (stepPhase s).cfg = s.cfg := by
  unfold stepPhase
  cases s.pss.astate <;> simp

@[simp] theorem ticksUpToReceive_cfg : (ticksUpToReceive s).cfg = s.cfg := by
  simp [ticksUpToReceive]

@[simp] theorem tick_cfg : (tick s).cfg = s.cfg := by
  simp only [tick]
  split_ifs <;> simp

end cfg

/-! ### The configuration under every instruction -/

/-- Any next state the outcome holds has the configuration of `s`. -/
def KeepsCfg (s : State) (o : Host.Outcome State Fault Refusal) : Prop :=
  ∀ t, o = .next t → t.cfg = s.cfg

@[simp] theorem keepsCfg_next (s t : State) : KeepsCfg s (.next t) ↔ t.cfg = s.cfg := by
  simp [KeepsCfg]

section keepsCfg
variable (s : State)

theorem execEncodeBeacon_keepsCfg : KeepsCfg s (execEncodeBeacon s) := by
  unfold execEncodeBeacon
  split <;> simp

theorem execDecodeBeacon_keepsCfg : KeepsCfg s (execDecodeBeacon s) := by
  unfold execDecodeBeacon
  split_ifs
  · simp
  · split <;> simp

theorem execEncodeAck_keepsCfg : KeepsCfg s (execEncodeAck s) := by
  unfold execEncodeAck
  split <;> simp

theorem execDecodeAck_keepsCfg : KeepsCfg s (execDecodeAck s) := by
  unfold execDecodeAck
  split_ifs
  · simp
  · split <;> simp

theorem execRepackLegacy_keepsCfg : KeepsCfg s (execRepackLegacy s) := by
  unfold execRepackLegacy
  split_ifs
  · simp
  · split <;> simp

theorem execGetRadioId_keepsCfg : KeepsCfg s (execGetRadioId s) := by
  unfold execGetRadioId
  split_ifs
  · simp
  · split <;> simp

theorem execGetMessageId_keepsCfg : KeepsCfg s (execGetMessageId s) := by
  unfold execGetMessageId
  split_ifs
  · simp
  · split <;> simp

theorem beginWaitCommand_cfg : (beginWaitCommand s).cfg = s.cfg := by
  unfold beginWaitCommand
  split_ifs
  · simp
  · obtain ⟨-, h⟩ | ⟨-, h⟩ :=
      beginWait_cases s.host.fRadioId.toNat s.host.fMessageId.toNat s.inputs.now s <;> simp [h]

theorem ackReceivedCommand_cfg : (ackReceivedCommand s).cfg = s.cfg := by
  simp [ackReceivedCommand]

theorem pollTimeoutCommand_cfg : (pollTimeoutCommand s).cfg = s.cfg := by
  simp [pollTimeoutCommand]

theorem runCommand_keepsCfg (c : Command) : KeepsCfg s (runCommand c s) := by
  cases c with
  | nop => simp [runCommand, execNop]
  | encodeBeacon => exact execEncodeBeacon_keepsCfg s
  | decodeBeacon => exact execDecodeBeacon_keepsCfg s
  | encodeAck => exact execEncodeAck_keepsCfg s
  | decodeAck => exact execDecodeAck_keepsCfg s
  | repackLegacy => exact execRepackLegacy_keepsCfg s
  | getRadioId => exact execGetRadioId_keepsCfg s
  | getMessageId => exact execGetMessageId_keepsCfg s
  | beginWait => exact (keepsCfg_next _ _).mpr (whenStandby_cfg s (beginWaitCommand_cfg s))
  | ackReceived => exact (keepsCfg_next _ _).mpr (whenStandby_cfg s (ackReceivedCommand_cfg s))
  | pollTimeout => exact (keepsCfg_next _ _).mpr (whenStandby_cfg s (pollTimeoutCommand_cfg s))
  | abortWait => exact (keepsCfg_next _ _).mpr (whenStandby_cfg s rfl)

/-- A command as an instruction runs the rule the host port issues for it (R115, R292). -/
theorem exec_toInstr (c : Command) : exec c.toInstr s = runCommand c s := by
  cases c <;> rfl

theorem execWr_keepsCfg (index : BitVec 6) (data : Word) : KeepsCfg s (execWr index data s) := by
  unfold execWr issue
  split_ifs
  · split
    · exact runCommand_keepsCfg s _
    · simp
  · simp

theorem execReset_keepsCfg : KeepsCfg s (execReset s) := by
  simp only [execReset]
  split_ifs <;> simp

/-- R6: no instruction writes the configuration. -/
theorem exec_keepsCfg (i : Instr) : KeepsCfg s (exec i s) := by
  cases i with
  | nop => exact runCommand_keepsCfg s .nop
  | encodeBeacon => exact runCommand_keepsCfg s .encodeBeacon
  | decodeBeacon => exact runCommand_keepsCfg s .decodeBeacon
  | encodeAck => exact runCommand_keepsCfg s .encodeAck
  | decodeAck => exact runCommand_keepsCfg s .decodeAck
  | repackLegacy => exact runCommand_keepsCfg s .repackLegacy
  | getRadioId => exact runCommand_keepsCfg s .getRadioId
  | getMessageId => exact runCommand_keepsCfg s .getMessageId
  | beginWait => exact runCommand_keepsCfg s .beginWait
  | ackReceived => exact runCommand_keepsCfg s .ackReceived
  | pollTimeout => exact runCommand_keepsCfg s .pollTimeout
  | abortWait => exact runCommand_keepsCfg s .abortWait
  | rd index => simp [exec, execRd]
  | wr index data => exact execWr_keepsCfg s index data
  | tick sb pn => simp [exec, execTick]
  | edgeStandby pn => simp [exec, execEdgeStandby]
  | edgePanic => simp [exec, execEdgePanic]
  | reset => exact execReset_keepsCfg s
  | beaconLegacy fields => simp [exec, execBeaconLegacy]
  | beaconNew fields => simp [exec, execBeaconNew]
  | ackLegacy rid mid => simp [exec, execAckLegacy]
  | ackNew rid res mid => simp [exec, execAckNew]

theorem step_keepsCfg : KeepsCfg s (step s) := by
  cases hs : s.schedule with
  | nil => simp [step_of_schedule_nil hs]
  | cons ev rest =>
    cases hd : decode ev.signal with
    | ok i =>
      rw [step_of_decode_ok hs hd]
      exact exec_keepsCfg { s with schedule := rest, inputs := ev.inputs } i
    | error e => simp [step_of_decode_error hs hd]

end keepsCfg

/-- Settles O49: taking an event off the schedule leaves the configuration, and so does every instruction. -/
theorem configurationIsFixed : Obligations.ConfigurationIsFixed :=
  fun s t h => step_keepsCfg s t h

end Sys2Proof.Machine
end

section
/-! SUPPORT. Proofs of the statements cited from 10_state.md: the invariant of the machine from reset (R65) through
every step, what each step leaves of the mode, the message counter and the sticky bits, and the routing metadata. -/

namespace Sys2Proof.Machine

/-! ### Outcomes -/

/-- The outcome is a next state with the property `P`. -/
def Answers (o : Host.Outcome State Fault Refusal) (P : State → Prop) : Prop := ∃ t, o = .next t ∧ P t

theorem Answers.mono {o : Host.Outcome State Fault Refusal} {P Q : State → Prop} (h : Answers o P)
    (hPQ : ∀ t, P t → Q t) : Answers o Q := by
  obtain ⟨t, ht, hP⟩ := h
  exact ⟨t, ht, hPQ t hP⟩

/-! ### The PKU commands -/

/-- A meaning that reads nothing but the configuration and the host port, and writes nothing but the host port. -/
def HostOnly (run : State → Host.Outcome State Fault Refusal) : Prop :=
  ∀ s s' : State, s.cfg = s'.cfg → s.host = s'.host →
    ∃ h, run s = .next (s.withHost h) ∧ run s' = .next (s'.withHost h)

theorem execNop_hostOnly : HostOnly execNop := by
  rintro ⟨⟩ ⟨⟩ rfl rfl
  exact ⟨_, rfl, rfl⟩

theorem execEncodeBeacon_hostOnly : HostOnly execEncodeBeacon := by
  rintro ⟨_, host⟩ ⟨⟩ rfl rfl
  unfold execEncodeBeacon
  cases encodeBeacon (operandFields host) <;> exact ⟨_, rfl, rfl⟩

theorem execDecodeBeacon_hostOnly : HostOnly execDecodeBeacon := by
  rintro ⟨_, host⟩ ⟨⟩ rfl rfl
  unfold execDecodeBeacon
  split_ifs
  · exact ⟨_, rfl, rfl⟩
  · simp only [frameBytes]
    cases decodeBeacon (bufferBytes host.frame 16) <;> exact ⟨_, rfl, rfl⟩

theorem execEncodeAck_hostOnly : HostOnly execEncodeAck := by
  rintro ⟨cfg, host⟩ ⟨⟩ rfl rfl
  unfold execEncodeAck
  cases encodeAck cfg.params.ackLayout host.fRadioId.toNat host.fMessageId.toNat <;>
    exact ⟨_, rfl, rfl⟩

theorem execDecodeAck_hostOnly : HostOnly execDecodeAck := by
  rintro ⟨cfg, host⟩ ⟨⟩ rfl rfl
  unfold execDecodeAck
  split_ifs
  · exact ⟨_, rfl, rfl⟩
  · simp only [frameBytes]
    cases decodeAck cfg.params.ackLayout (bufferBytes host.frame 3) <;> exact ⟨_, rfl, rfl⟩

theorem execRepackLegacy_hostOnly : HostOnly execRepackLegacy := by
  rintro ⟨_, host⟩ ⟨⟩ rfl rfl
  unfold execRepackLegacy
  split_ifs
  · exact ⟨_, rfl, rfl⟩
  · simp only [frameBytes]
    cases repackLegacy (bufferBytes host.frame 16) <;> exact ⟨_, rfl, rfl⟩

theorem execGetRadioId_hostOnly : HostOnly execGetRadioId := by
  rintro ⟨_, host⟩ ⟨⟩ rfl rfl
  unfold execGetRadioId
  split_ifs
  · exact ⟨_, rfl, rfl⟩
  · simp only [frameBytes]
    cases decodeBeacon (bufferBytes host.frame 16) <;> exact ⟨_, rfl, rfl⟩

theorem execGetMessageId_hostOnly : HostOnly execGetMessageId := by
  rintro ⟨_, host⟩ ⟨⟩ rfl rfl
  unfold execGetMessageId
  split_ifs
  · exact ⟨_, rfl, rfl⟩
  · simp only [frameBytes]
    cases decodeBeacon (bufferBytes host.frame 16) <;> exact ⟨_, rfl, rfl⟩

/-! ### Every step but a TICK and RESET -/

/-- What every step but a TICK and RESET leaves: the configuration, the overheard buffer, the trace of `Send`, and the
sequencer but for its two request flags. The pending entry moves in STANDBY only (R239). -/
structure KeepsControl (s t : State) : Prop where
  cfg  : t.cfg = s.cfg
  ovh  : t.ovh = s.ovh
  sent : t.out.sent = s.out.sent
  pss  : t.pss = { s.pss with reqStandby := t.pss.reqStandby, reqPanic := t.pss.reqPanic }
  pend : t.pend = s.pend ∨ (s.pss.mode = .standby ∧ PendingClean t)

section keepsControl
variable (s : State)

theorem KeepsControl.refl : KeepsControl s s := ⟨rfl, rfl, rfl, rfl, .inl rfl⟩

theorem withHost_keepsControl (h : HostPort) : KeepsControl s (s.withHost h) :=
  ⟨rfl, rfl, rfl, rfl, .inl rfl⟩

theorem respond_keepsControl (w : Word) : KeepsControl s (respond w s) := ⟨rfl, rfl, rfl, rfl, .inl rfl⟩

theorem frameArrives_keepsControl (b : List Byte) : KeepsControl s (frameArrives b s) :=
  ⟨rfl, rfl, rfl, rfl, .inl rfl⟩

theorem latchEdges_keepsControl (sb pn : Bool) :
    KeepsControl s (latchPanicEdge pn (latchStandbyEdge sb s)) :=
  ⟨rfl, rfl, rfl, rfl, .inl rfl⟩

theorem latchPanicEdge_keepsControl (b : Bool) : KeepsControl s (latchPanicEdge b s) :=
  ⟨rfl, rfl, rfl, rfl, .inl rfl⟩

theorem takeUndecoded_keepsControl (e : DecodeError) : KeepsControl s (takeUndecoded e s) := by
  cases e with
  | illegalCommand w => exact withHost_keepsControl s _
  | emptyStrobe => exact .refl s
  | frameLength bytes => exact frameArrives_keepsControl s bytes

theorem HostOnly.keepsControl {run : State → Host.Outcome State Fault Refusal} (h : HostOnly run) :
    Answers (run s) (KeepsControl s) := by
  obtain ⟨host, hrun, -⟩ := h s s rfl rfl
  exact ⟨_, hrun, withHost_keepsControl s host⟩

/-- An ACT command moves no more than the pending entry, and that in STANDBY only (R239). -/
theorem whenStandby_keepsControl {run : State → State}
    (h : s.pss.mode = .standby → KeepsControl s (run s)) : KeepsControl s (whenStandby run s) := by
  obtain ⟨-, hw⟩ | ⟨hm, hw⟩ := whenStandby_cases run s
  · rw [hw]
    exact withHost_keepsControl s _
  · rw [hw]
    exact h hm

theorem pendingClean_of_zero {t : State} (h : t.pend = PendingMessage.zero) : PendingClean t := by
  simp [PendingClean, h, PendingMessage.zero]

theorem pendingClean_of_begun {t : State} {rid mid : BitVec 15} {sentAt : Word}
    (h : t.pend = ⟨true, rid, mid, sentAt, 0⟩) : PendingClean t := by
  simp [PendingClean, h]

theorem beginWaitCommand_keepsControl (hm : s.pss.mode = .standby) :
    KeepsControl s (beginWaitCommand s) := by
  unfold beginWaitCommand
  split_ifs
  · exact withHost_keepsControl s _
  · obtain ⟨-, h⟩ | ⟨-, h⟩ :=
      beginWait_cases s.host.fRadioId.toNat s.host.fMessageId.toNat s.inputs.now s
    · rw [h]
      exact withHost_keepsControl s _
    · rw [h]
      exact ⟨rfl, rfl, rfl, rfl, .inr ⟨hm, pendingClean_of_begun rfl⟩⟩

theorem ackReceivedCommand_keepsControl (hm : s.pss.mode = .standby) :
    KeepsControl s (ackReceivedCommand s) := by
  unfold ackReceivedCommand
  obtain ⟨-, h⟩ | ⟨-, h⟩ :=
    onAckReceived_cases s.host.fRadioId.toNat s.host.fMessageId.toNat s
  · rw [h]
    exact ⟨rfl, rfl, rfl, rfl, .inr ⟨hm, pendingClean_of_zero rfl⟩⟩
  · rw [h]
    exact withHost_keepsControl s _

theorem pollTimeoutCommand_keepsControl (hm : s.pss.mode = .standby) :
    KeepsControl s (pollTimeoutCommand s) := by
  unfold pollTimeoutCommand
  obtain ⟨-, h⟩ | ⟨-, h⟩ := pollTimeout_cases s.inputs.now s
  · rw [h]
    exact ⟨rfl, rfl, rfl, rfl, .inr ⟨hm, pendingClean_of_zero rfl⟩⟩
  · rw [h]
    exact withHost_keepsControl s _

theorem abortWaitCommand_keepsControl (hm : s.pss.mode = .standby) :
    KeepsControl s (abortWaitCommand s) :=
  ⟨rfl, rfl, rfl, rfl, .inr ⟨hm, pendingClean_of_zero rfl⟩⟩

theorem runCommand_keepsControl (c : Command) : Answers (runCommand c s) (KeepsControl s) := by
  cases c with
  | nop => exact execNop_hostOnly.keepsControl s
  | encodeBeacon => exact execEncodeBeacon_hostOnly.keepsControl s
  | decodeBeacon => exact execDecodeBeacon_hostOnly.keepsControl s
  | encodeAck => exact execEncodeAck_hostOnly.keepsControl s
  | decodeAck => exact execDecodeAck_hostOnly.keepsControl s
  | repackLegacy => exact execRepackLegacy_hostOnly.keepsControl s
  | getRadioId => exact execGetRadioId_hostOnly.keepsControl s
  | getMessageId => exact execGetMessageId_hostOnly.keepsControl s
  | beginWait => exact ⟨_, rfl, whenStandby_keepsControl s (beginWaitCommand_keepsControl s)⟩
  | ackReceived => exact ⟨_, rfl, whenStandby_keepsControl s (ackReceivedCommand_keepsControl s)⟩
  | pollTimeout => exact ⟨_, rfl, whenStandby_keepsControl s (pollTimeoutCommand_keepsControl s)⟩
  | abortWait => exact ⟨_, rfl, whenStandby_keepsControl s (abortWaitCommand_keepsControl s)⟩

theorem execWr_keepsControl (index : BitVec 6) (data : Word) :
    Answers (execWr index data s) (KeepsControl s) := by
  unfold execWr issue
  split_ifs
  · split
    · exact runCommand_keepsControl s _
    · exact ⟨_, rfl, withHost_keepsControl s _⟩
  · exact ⟨_, rfl, withHost_keepsControl s _⟩

end keepsControl

/-- Every instruction is RESET, a TICK, or one that leaves the control part of every state alone. -/
theorem reset_or_tick_or_keepsControl (i : Instr) : i = .reset ∨ (∃ sb pn, i = .tick sb pn) ∨
    ∀ s, Answers (exec i s) (KeepsControl s) := by
  cases i with
  | reset => exact .inl rfl
  | tick sb pn => exact .inr (.inl ⟨sb, pn, rfl⟩)
  | nop => exact .inr (.inr fun s => runCommand_keepsControl s .nop)
  | encodeBeacon => exact .inr (.inr fun s => runCommand_keepsControl s .encodeBeacon)
  | decodeBeacon => exact .inr (.inr fun s => runCommand_keepsControl s .decodeBeacon)
  | encodeAck => exact .inr (.inr fun s => runCommand_keepsControl s .encodeAck)
  | decodeAck => exact .inr (.inr fun s => runCommand_keepsControl s .decodeAck)
  | repackLegacy => exact .inr (.inr fun s => runCommand_keepsControl s .repackLegacy)
  | getRadioId => exact .inr (.inr fun s => runCommand_keepsControl s .getRadioId)
  | getMessageId => exact .inr (.inr fun s => runCommand_keepsControl s .getMessageId)
  | beginWait => exact .inr (.inr fun s => runCommand_keepsControl s .beginWait)
  | ackReceived => exact .inr (.inr fun s => runCommand_keepsControl s .ackReceived)
  | pollTimeout => exact .inr (.inr fun s => runCommand_keepsControl s .pollTimeout)
  | abortWait => exact .inr (.inr fun s => runCommand_keepsControl s .abortWait)
  | rd index => exact .inr (.inr fun s => ⟨_, rfl, respond_keepsControl s _⟩)
  | wr index data => exact .inr (.inr fun s => execWr_keepsControl s index data)
  | edgeStandby pn => exact .inr (.inr fun s => ⟨_, rfl, latchEdges_keepsControl s true pn⟩)
  | edgePanic => exact .inr (.inr fun s => ⟨_, rfl, latchPanicEdge_keepsControl s true⟩)
  | beaconLegacy fields => exact .inr (.inr fun s => ⟨_, rfl, frameArrives_keepsControl s _⟩)
  | beaconNew fields => exact .inr (.inr fun s => ⟨_, rfl, frameArrives_keepsControl s _⟩)
  | ackLegacy rid mid => exact .inr (.inr fun s => ⟨_, rfl, frameArrives_keepsControl s _⟩)
  | ackNew rid res mid => exact .inr (.inr fun s => ⟨_, rfl, frameArrives_keepsControl s _⟩)

/-! ### The phases of a TICK before its state step -/

theorem mode_ne_standby {m : Mode} : m ≠ .standby ↔ m = .active := by cases m <;> decide

theorem standbyPhase_toActive {s : State} (h : s.pss.mode = .standby) :
    standbyPhase true s = enterActive (s.withPss { s.pss with mode := .active }) := by
  simp [standbyPhase, h, Mode.toggle]

theorem standbyPhase_toStandby {s : State} (h : s.pss.mode = .active) :
    standbyPhase true s = enterStandby (s.withPss { s.pss with mode := .standby }) := by
  simp [standbyPhase, h, Mode.toggle]

/-- R185: a toggle inverts `PANIC`, and one to 1 is a panic-asserted edge. -/
theorem panicPhase_eq (b : Bool) (s : State) : panicPhase b s = s.withPss { s.pss with
    panic := s.pss.panic ^^ b, panicPending := s.pss.panicPending || (b && !s.pss.panic) } := by
  cases b with
  | false => simp only [Bool.xor_false, Bool.false_and, Bool.or_false]; rfl
  | true => simp [panicPhase]

/-- R186: the poll writes the fix registers, and only with a valid fix. -/
theorem gpsPhase_eq (s : State) : gpsPhase s = s.withPss (Claims.withFix s.inputs.gps s.pss) := by
  unfold gpsPhase Claims.withFix
  cases s.inputs.gps with
  | none => rfl
  | some f => cases hf : f.valid <;> simp [hf]

/-- What taking a received frame can do (R187 to R190). -/
inductive Received (s : State) : State → Prop
  | unchanged : Received s s
  | matched (e : LogEvent) : s.pss.mode = .active → Received s (emit e (clearPending s))
  | overheard (b : List Byte) : s.pss.mode = .active → s.cfg.params.supportsRelay = true →
      b.length = 16 ∨ b.length = 3 → Received s (storeOverheard b s)
  | invalid (n : Nat) : s.pss.mode = .active → Received s (rxInvalid n s)

theorem rxBeacon_received {s : State} {b : List Byte} (hm : s.pss.mode = .active)
    (hb : b.length = 16) : Received s (rxBeacon b s) := by
  unfold rxBeacon
  split_ifs with hr
  · exact .overheard b hm hr (.inl hb)
  · exact .unchanged

theorem rxAck_received {s : State} {b : List Byte} (hm : s.pss.mode = .active)
    (hb : b.length = 3) : Received s (rxAck b s) := by
  unfold rxAck
  split
  next => exact .unchanged
  next rid mid _ =>
    obtain ⟨-, h⟩ | ⟨-, h⟩ := onAckReceived_cases rid mid s
    · simp only [h, if_true]
      exact .matched _ hm
    · simp only [h, reduceCtorEq, if_false]
      split_ifs with hr
      · exact .overheard b hm hr (.inr hb)
      · exact .unchanged

theorem takeFrame_received (s : State) (b : List Byte) : Received s (takeFrame b s) := by
  unfold takeFrame
  split_ifs with hs h16 h3
  · exact .unchanged
  · exact rxBeacon_received (mode_ne_standby.mp hs) h16
  · exact rxAck_received (mode_ne_standby.mp hs) h3
  · exact .invalid _ (mode_ne_standby.mp hs)

theorem receivePhase_received (s : State) :
    Received (s.withRxQueue s.rxQueue.tail) (receivePhase s) := by
  unfold receivePhase
  split
  next h =>
    rw [h, List.tail_nil, ← h]
    exact .unchanged
  next f rest h =>
    rw [h, List.tail_cons]
    exact takeFrame_received _ f.bytes

/-- What phases 3 to 5 leave alone of the configuration, the input ports, the trace of `Send` and the sequencer: they
write no mode, no active state and no counter. -/
structure PhaseFrame (s t : State) : Prop where
  cfg        : t.cfg = s.cfg
  mode       : t.pss.mode = s.pss.mode
  astate     : t.pss.astate = s.pss.astate
  msgCounter : t.pss.msgCounter = s.pss.msgCounter
  inputs     : t.inputs = s.inputs
  sent       : t.out.sent = s.out.sent

theorem PhaseFrame.trans {s t u : State} (h : PhaseFrame s t) (k : PhaseFrame t u) : PhaseFrame s u where
  cfg := k.cfg.trans h.cfg
  mode := k.mode.trans h.mode
  astate := k.astate.trans h.astate
  msgCounter := k.msgCounter.trans h.msgCounter
  inputs := k.inputs.trans h.inputs
  sent := k.sent.trans h.sent

theorem panicPhase_frame (b : Bool) (s : State) : PhaseFrame s (panicPhase b s) := by
  rw [panicPhase_eq]
  exact ⟨rfl, rfl, rfl, rfl, rfl, rfl⟩

theorem gpsPhase_frame (s : State) : PhaseFrame s (gpsPhase s) := by
  unfold gpsPhase
  split
  · split_ifs <;> exact ⟨rfl, rfl, rfl, rfl, rfl, rfl⟩
  · exact ⟨rfl, rfl, rfl, rfl, rfl, rfl⟩

theorem Received.frame {s t : State} (h : Received s t) : PhaseFrame s t := by
  cases h <;> exact ⟨rfl, rfl, rfl, rfl, rfl, rfl⟩

theorem receivePhase_frame (s : State) : PhaseFrame s (receivePhase s) := by
  have h : PhaseFrame s (s.withRxQueue s.rxQueue.tail) := ⟨rfl, rfl, rfl, rfl, rfl, rfl⟩
  exact h.trans (receivePhase_received s).frame

theorem ticksUpToReceive_frame (s : State) :
    PhaseFrame (standbyPhase s.pss.reqStandby (drainRequests s)) (ticksUpToReceive s) :=
  ((panicPhase_frame _ _).trans (gpsPhase_frame _)).trans (receivePhase_frame _)

/-- In a TICK that does not toggle `MODE`, the state step starts from the frame of the whole state. -/
theorem ticksUpToReceive_frame_of_not_toggles {s : State} (h : s.pss.reqStandby = false) :
    PhaseFrame s (ticksUpToReceive s) := by
  have hd : PhaseFrame s (standbyPhase s.pss.reqStandby (drainRequests s)) := by
    rw [h]
    exact ⟨rfl, rfl, rfl, rfl, rfl, rfl⟩
  exact hd.trans (ticksUpToReceive_frame s)

/-! ### The state step of a TICK -/

/-- What the state step can do, by the `ASTATE` it starts from (R194 to R199). -/
inductive StateStep (s : State) : State → Prop
  | idleStays : s.pss.astate = .idle → StateStep s s
  | panicTransmits : s.pss.astate = .idle →
      StateStep s (s.withPss { s.pss with panicPending := false, astate := .transmit })
  | idleEnds : s.pss.astate = .idle → StateStep s (setActiveState .transmit s)
  | relayStarts : s.pss.astate = .idle → s.cfg.params.supportsRelay = true →
      StateStep s (setActiveState .relay s)
  | transmitFails : s.pss.astate = .transmit → StateStep s (failTransmit s)
  | transmits (r : List Byte) : s.pss.astate = .transmit → encodeBeacon (beaconFields s) = .ok r →
      StateStep s (finishTransmit (startWait (send r s)))
  | waitStays : s.pss.astate = .awaitAck → s.pend.valid = true → StateStep s s
  | waitTimesOut (e : LogEvent) : s.pss.astate = .awaitAck →
      StateStep s (enterIdle (emit e (clearPending s)))
  | waitEnds : s.pss.astate = .awaitAck → s.pend.valid = false → StateStep s (enterIdle s)
  | relays : s.pss.astate = .relay → StateStep s (stepRelay s)

section stateStep
variable {s : State}

theorem stepIdle_stateStep (h : s.pss.astate = .idle) : StateStep s (stepIdle s) := by
  unfold stepIdle
  split_ifs with hp hi hr
  · exact .panicTransmits h
  · exact .idleEnds h
  · exact .relayStarts h (Bool.and_eq_true_iff.mp hr).1
  · exact .idleStays h

theorem stepTransmit_stateStep (h : s.pss.astate = .transmit) : StateStep s (stepTransmit s) := by
  unfold stepTransmit
  split
  next => exact .transmitFails h
  next r hr => exact .transmits r h hr

theorem stepAwaitAck_stateStep (h : s.pss.astate = .awaitAck) : StateStep s (stepAwaitAck s) := by
  unfold stepAwaitAck
  split_ifs with hv
  · obtain ⟨-, hp⟩ | ⟨-, hp⟩ := pollTimeout_cases s.inputs.now s
    · simp only [hp, if_true]
      exact .waitTimesOut _ h
    · simp only [hp, reduceCtorEq, if_false]
      exact .waitStays h hv
  · exact .waitEnds h (Bool.eq_false_iff.mpr hv)

theorem stepPhase_stateStep (s : State) : StateStep s (stepPhase s) := by
  unfold stepPhase
  split
  next h => exact stepIdle_stateStep h
  next h => exact stepTransmit_stateStep h
  next h => exact stepAwaitAck_stateStep h
  next h => exact .relays h

end stateStep

/-- R181: phase 6 runs in ACTIVE in a TICK that does not toggle `MODE`, and else the TICK ends with phase 5. -/
theorem tick_cases (s : State) :
    (s.pss.mode = .active ∧ s.pss.reqStandby = false ∧ StateStep (ticksUpToReceive s) (tick s)) ∨
      ((s.pss.mode = .standby ∨ s.pss.reqStandby = true) ∧ tick s = ticksUpToReceive s) := by
  unfold tick
  cases hr : s.pss.reqStandby with
  | true => exact .inr ⟨.inr rfl, by simp⟩
  | false =>
    have hmode := (ticksUpToReceive_frame_of_not_toggles hr).mode
    cases hm : s.pss.mode with
    | standby => exact .inr ⟨.inl rfl, by simp [hmode, hm]⟩
    | active => exact .inl ⟨rfl, rfl, by simpa [hmode, hm] using stepPhase_stateStep _⟩

/-! ### RESET -/

theorem execReset_standby {s : State} (h : s.inputs.switchActive = false) :
    execReset s = .next (clearBlock s) := by
  simp [execReset, h]

/-- A reset with the switch in ACTIVE enters ACTIVE as a standby toggle of the cleared block does (R184, R340). -/
theorem execReset_active {s : State} (h : s.inputs.switchActive = true) :
    execReset s = .next (standbyPhase true (clearBlock s)) := by
  rw [standbyPhase_toActive rfl]
  simp only [execReset, h, if_true]
  rfl

/-! ### Safe states -/

/-- `Safe` as it holds between the phases of a TICK: an ack may have cleared the pending entry while `ASTATE` is still
AWAIT_ACK, until the state step of the same TICK (R190, R198). -/
structure SafeMidTick (s : State) : Prop where
  standbyQuiet    : StandbyQuiet s
  pendingAwaited  : s.pss.mode = .active → s.pend.valid = true → s.pss.astate = .awaitAck
  pendingClean    : PendingClean s
  relayGated      : RelayGated s
  overheardShaped : OverheardShaped s
  idleDurDrawn    : IdleDurDrawn s
  fixBeforeValid  : FixBeforeValid s
  seqPendingClear : SeqPendingClear s

theorem Safe.midTick {s : State} (h : Safe s) : SafeMidTick s :=
  { h with pendingAwaited := fun hm => (h.singleOutstanding hm).mp }

theorem SafeMidTick.safe {s : State} (h : SafeMidTick s)
    (hw : s.pss.mode = .active → s.pss.astate = .awaitAck → s.pend.valid = true) : Safe s :=
  { h with singleOutstanding := fun hm => ⟨h.pendingAwaited hm, hw hm⟩ }

theorem overheardShaped_of_zero {s : State} (h : s.ovh = Overheard.zero) : OverheardShaped s := by
  simp [OverheardShaped, h, Overheard.zero]

theorem storeOverheard_shaped (s : State) {b : List Byte} (hb : b.length = 16 ∨ b.length = 3) :
    OverheardShaped (storeOverheard b s) := by
  have hlen : (BitVec.ofNat 5 b.length).toNat = b.length := by
    rw [BitVec.toNat_ofNat]
    omega
  have hzero (k : Nat) (hk : b.length ≤ k) : bufferByte (overlay Buffer.zero b) k = 0 := by
    by_cases h16 : k < 16
    · rw [bufferByte_eq _ _ h16, overlay_getElem, List.getD_eq_default _ _ hk]
      simp [Buffer.zero]
    · exact bufferByte_past _ _ (not_lt.mp h16)
  refine ⟨nofun, fun _ => ⟨?_, fun k hk => hzero k (hlen ▸ hk)⟩⟩
  exact hb.imp (fun h => by simp [storeOverheard, h]) (fun h => by simp [storeOverheard, h])

/-- R193, R35: the draw lies in the window. -/
theorem enterIdle_idleDurDrawn (s : State) : IdleDurDrawn (enterIdle s) := by
  have hw : InIdleWindow s.cfg.params (enterIdle s).pss.idleDur.toNat := by
    obtain ⟨hlo, hhi, -⟩ := idleDraw_window s.cfg s.inputs.rng
    rw [enterIdle_idleDur]
    exact ⟨hlo, hhi⟩
  exact ⟨fun _ => hw, .inl hw⟩

/-- Every step but a TICK and RESET keeps the invariant. -/
theorem KeepsControl.safe {s t : State} (k : KeepsControl s t) (h : Safe s) : Safe t := by
  obtain ⟨cfg, host, pend, ovh, pss, inputs, rxQueue, schedule, out⟩ := t
  obtain ⟨rfl, rfl, -, hpss, hpend⟩ := k
  simp only at hpss hpend
  rw [hpss]
  exact
    { standbyQuiet := h.standbyQuiet
      singleOutstanding := by
        intro hm
        obtain rfl | ⟨hs, -⟩ := hpend
        · exact h.singleOutstanding hm
        · exact absurd (hs.symm.trans hm) nofun
      pendingClean := by
        obtain rfl | ⟨-, hc⟩ := hpend
        · exact h.pendingClean
        · exact hc
      relayGated := h.relayGated
      overheardShaped := h.overheardShaped
      idleDurDrawn := h.idleDurDrawn
      fixBeforeValid := h.fixBeforeValid
      seqPendingClear := h.seqPendingClear }

/-! The phases of a TICK keep the invariant. -/

theorem enterActive_safe {s : State} (hr : s.cfg.params.supportsRelay = false → s.ovh = Overheard.zero)
    (ho : OverheardShaped s) (hf : FixBeforeValid s) (hp : SeqPendingClear s)
    (hm : s.pss.mode = .active) : SafeMidTick (enterActive s) where
  standbyQuiet hs := absurd (hs.symm.trans hm) nofun
  pendingAwaited _ := nofun
  pendingClean := pendingClean_of_zero rfl
  relayGated hc := ⟨nofun, hr hc⟩
  overheardShaped := ho
  idleDurDrawn := enterIdle_idleDurDrawn (abortWait s)
  fixBeforeValid := hf
  seqPendingClear := hp

theorem enterStandby_safe {s : State} (hd : IdleDurDrawn s) (hf : FixBeforeValid s)
    (hp : SeqPendingClear s) : SafeMidTick (enterStandby s) where
  standbyQuiet _ := ⟨rfl, rfl⟩
  pendingAwaited _ := nofun
  pendingClean := pendingClean_of_zero rfl
  relayGated _ := ⟨nofun, rfl⟩
  overheardShaped := overheardShaped_of_zero rfl
  idleDurDrawn := hd
  fixBeforeValid := hf
  seqPendingClear := hp

theorem standbyPhase_safe {s : State} (b : Bool) (h : SafeMidTick s) : SafeMidTick (standbyPhase b s) := by
  cases b with
  | false => exact h
  | true =>
    cases hm : s.pss.mode with
    | standby =>
      rw [standbyPhase_toActive hm]
      exact enterActive_safe (fun hc => (h.relayGated hc).2) h.overheardShaped h.fixBeforeValid
        h.seqPendingClear rfl
    | active =>
      rw [standbyPhase_toStandby hm]
      exact enterStandby_safe ⟨nofun, h.idleDurDrawn.2⟩ h.fixBeforeValid h.seqPendingClear

theorem standbyPhase_true_astate (s : State) : (standbyPhase true s).pss.astate = .idle := by
  cases hm : s.pss.mode with
  | standby => rw [standbyPhase_toActive hm]; rfl
  | active => rw [standbyPhase_toStandby hm]; rfl

theorem drainRequests_safe {s : State} (h : SafeMidTick s) : SafeMidTick (drainRequests s) :=
  { h with }

theorem panicPhase_safe {s : State} (b : Bool) (h : SafeMidTick s) : SafeMidTick (panicPhase b s) := by
  rw [panicPhase_eq]
  exact { h with }

theorem gpsPhase_safe {s : State} (h : SafeMidTick s) : SafeMidTick (gpsPhase s) := by
  unfold gpsPhase
  split
  · split_ifs
    · exact { h with fixBeforeValid := nofun }
    · exact h
  · exact h

theorem Received.safe {s t : State} (hr : Received s t) (h : SafeMidTick s) : SafeMidTick t := by
  cases hr with
  | unchanged => exact h
  | matched e _ =>
    exact { h with pendingAwaited := fun _ => nofun, pendingClean := pendingClean_of_zero rfl }
  | overheard b hm hc hb =>
    exact { h with
      standbyQuiet := fun hs => absurd (hs.symm.trans hm) nofun
      relayGated := fun hn => absurd (hn.symm.trans hc) nofun
      overheardShaped := storeOverheard_shaped s hb }
  | invalid n _ => exact { h with }

theorem ticksUpToReceive_safe {s : State} (h : Safe s) : SafeMidTick (ticksUpToReceive s) := by
  have hphases := gpsPhase_safe
    (panicPhase_safe s.pss.reqPanic (standbyPhase_safe s.pss.reqStandby (drainRequests_safe h.midTick)))
  exact (receivePhase_received _).safe { hphases with }

/-! The state step restores the whole invariant. -/

section stateStep
variable {s : State}

theorem SafeMidTick.not_pending (h : SafeMidTick s) (hm : s.pss.mode = .active)
    (ha : s.pss.astate ≠ .awaitAck) : s.pend.valid = false :=
  Bool.eq_false_iff.mpr fun hv => ha (h.pendingAwaited hm hv)

theorem setActiveState_safe {a : ActiveState} (h : SafeMidTick s) (hm : s.pss.mode = .active)
    (hv : s.pend.valid = false) (ha : a ≠ .awaitAck)
    (hr : a = .relay → s.cfg.params.supportsRelay = true) : Safe (setActiveState a s) :=
  { h with
    standbyQuiet := fun hs => absurd (hs.symm.trans hm) nofun
    singleOutstanding := fun _ =>
      ⟨fun hp => absurd (hv.symm.trans hp) nofun, fun hw => absurd hw ha⟩
    relayGated := fun hc =>
      ⟨fun hra => absurd (hc.symm.trans (hr hra)) nofun, (h.relayGated hc).2⟩ }

theorem enterIdle_safe (h : SafeMidTick s) (hm : s.pss.mode = .active)
    (hv : s.pend.valid = false) : Safe (enterIdle s) :=
  { setActiveState_safe (a := .idle) h hm hv nofun nofun with
    idleDurDrawn := enterIdle_idleDurDrawn s }

theorem send_safe (r : List Byte) (h : SafeMidTick s) : SafeMidTick (send r s) := by
  unfold send
  split_ifs <;> exact { h with }

theorem startWait_of_not_pending (hv : s.pend.valid = false) : startWait s = s.withPend
    ⟨true, BitVec.ofNat 15 s.cfg.params.nodeRadioId, BitVec.ofNat 15 s.pss.msgCounter.toNat,
      s.inputs.now, 0⟩ := by
  simp [startWait, beginWait, hv]

/-- R195, R201: the wait opens with the entry, and `SEQ_PENDING` is not set. -/
theorem finishTransmit_startWait_safe (h : SafeMidTick s) (hm : s.pss.mode = .active)
    (hv : s.pend.valid = false) : Safe (finishTransmit (startWait s)) := by
  rw [startWait_of_not_pending hv]
  exact { h with
    standbyQuiet := fun hs => absurd (hs.symm.trans hm) nofun
    singleOutstanding := fun _ => ⟨fun _ => rfl, fun _ => rfl⟩
    pendingClean := pendingClean_of_begun rfl
    relayGated := fun hc => ⟨nofun, (h.relayGated hc).2⟩ }

theorem clearOverheard_safe (h : SafeMidTick s) : SafeMidTick (clearOverheard s) :=
  { h with
    standbyQuiet := fun hs => ⟨(h.standbyQuiet hs).1, rfl⟩
    relayGated := fun hc => ⟨(h.relayGated hc).1, rfl⟩
    overheardShaped := overheardShaped_of_zero rfl }

/-- R199: RELAY keeps an empty buffer, or empties it after a `Send` or a drop. -/
theorem forwardOverheard_cases (s : State) : forwardOverheard s = s ∨
    (∃ r, forwardOverheard s = clearOverheard (send r s)) ∨
    ∃ e, forwardOverheard s = clearOverheard (emit (.relayDrop e)
      (setSticky { s.pss.sticky with relayDrop := true } s)) := by
  unfold forwardOverheard
  split_ifs
  · split
    next r _ => exact .inr (.inl ⟨r, rfl⟩)
    next e _ => exact .inr (.inr ⟨e, rfl⟩)
  · exact .inl rfl

theorem forwardOverheard_safe (h : SafeMidTick s) : SafeMidTick (forwardOverheard s) := by
  obtain he | ⟨r, he⟩ | ⟨e, he⟩ := forwardOverheard_cases s
  · rw [he]; exact h
  · rw [he]; exact clearOverheard_safe (send_safe r h)
  · rw [he]; exact clearOverheard_safe { h with }

theorem forwardOverheard_pend (s : State) : (forwardOverheard s).pend = s.pend := by
  obtain he | ⟨r, he⟩ | ⟨e, he⟩ := forwardOverheard_cases s
  · rw [he]
  · rw [he]; exact send_pend s r
  · rw [he]; rfl

theorem forwardOverheard_pss (s : State) :
    ∃ st, (forwardOverheard s).pss = { s.pss with sticky := st } := by
  obtain he | ⟨r, he⟩ | ⟨e, he⟩ := forwardOverheard_cases s
  · exact ⟨_, by rw [he]⟩
  · exact ⟨_, by rw [he]; exact send_pss s r⟩
  · exact ⟨_, by rw [he]; rfl⟩

theorem stepRelay_safe (h : SafeMidTick s) (hm : s.pss.mode = .active)
    (hv : s.pend.valid = false) : Safe (stepRelay s) := by
  obtain ⟨st, hpss⟩ := forwardOverheard_pss s
  have hidle : Safe (setActiveState .idle (forwardOverheard s)) :=
    setActiveState_safe (forwardOverheard_safe h) (hpss ▸ hm)
      (by rw [forwardOverheard_pend, hv]) nofun nofun
  exact { hidle with }

/-- The state step of a TICK restores the whole invariant. -/
theorem StateStep.safe {t : State} (hstep : StateStep s t) (h : SafeMidTick s)
    (hm : s.pss.mode = .active) : Safe t := by
  have hv (ha : s.pss.astate ≠ .awaitAck) : s.pend.valid = false := h.not_pending hm ha
  cases hstep with
  | idleStays ha => exact h.safe fun _ hw => absurd (ha.symm.trans hw) nofun
  | panicTransmits ha =>
    exact { setActiveState_safe (a := .transmit) h hm (hv (by simp [ha])) nofun nofun with }
  | idleEnds ha => exact setActiveState_safe h hm (hv (by simp [ha])) nofun nofun
  | relayStarts ha hc => exact setActiveState_safe h hm (hv (by simp [ha])) nofun fun _ => hc
  | transmitFails ha => exact enterIdle_safe { h with } hm (hv (by simp [ha]))
  | transmits r ha _ =>
    have hmode : (send r s).pss.mode = .active := by rw [send_pss]; exact hm
    have hpend : (send r s).pend.valid = false := by rw [send_pend, hv (by simp [ha])]
    exact finishTransmit_startWait_safe (send_safe r h) hmode hpend
  | waitStays _ hp => exact h.safe fun _ _ => hp
  | waitTimesOut e _ =>
    have hclear : SafeMidTick (emit e (clearPending s)) := Received.safe (.matched e hm) h
    exact enterIdle_safe hclear hm rfl
  | waitEnds _ hp => exact enterIdle_safe h hm hp
  | relays ha => exact stepRelay_safe h hm (hv (by simp [ha]))

end stateStep

theorem tick_safe {s : State} (h : Safe s) : Safe (tick s) := by
  have hbefore := ticksUpToReceive_safe h
  obtain ⟨hm, hr, hstep⟩ | ⟨hend, htick⟩ := tick_cases s
  · exact hstep.safe hbefore ((ticksUpToReceive_frame_of_not_toggles hr).mode.trans hm)
  · rw [htick]
    refine hbefore.safe fun hma haw => ?_
    cases hr : s.pss.reqStandby with
    | true =>
      have hidle := (ticksUpToReceive_frame s).astate
      rw [hr, standbyPhase_true_astate] at hidle
      exact absurd (hidle.symm.trans haw) nofun
    | false =>
      have hmode := (ticksUpToReceive_frame_of_not_toggles hr).mode
      have hs : s.pss.mode = .standby := hend.resolve_right (by simp [hr])
      exact absurd ((hs.symm.trans hmode.symm).trans hma) nofun

theorem clearBlock_safe (s : State) : Safe (clearBlock s) where
  standbyQuiet _ := ⟨rfl, rfl⟩
  singleOutstanding := nofun
  pendingClean := pendingClean_of_zero rfl
  relayGated _ := ⟨nofun, rfl⟩
  overheardShaped := overheardShaped_of_zero rfl
  idleDurDrawn := ⟨nofun, .inr ⟨rfl, rfl⟩⟩
  fixBeforeValid _ := ⟨rfl, rfl, rfl⟩
  seqPendingClear := rfl

theorem execReset_safe (s : State) : Answers (execReset s) Safe := by
  have hclear := clearBlock_safe s
  cases h : s.inputs.switchActive with
  | false => exact ⟨_, execReset_standby h, hclear⟩
  | true =>
    refine ⟨_, execReset_active h, (standbyPhase_safe true hclear.midTick).safe fun _ hw => ?_⟩
    exact absurd ((standbyPhase_true_astate _).symm.trans hw) nofun

/-- Every instruction keeps the invariant. -/
theorem exec_safe (i : Instr) {s : State} (h : Safe s) : Answers (exec i s) Safe := by
  obtain rfl | ⟨sb, pn, rfl⟩ | hk := reset_or_tick_or_keepsControl i
  · exact execReset_safe s
  · exact ⟨_, rfl, tick_safe ((latchEdges_keepsControl s sb pn).safe h)⟩
  · exact (hk s).mono fun _ k => k.safe h

theorem step_safe {s : State} (h : Safe s) : Answers (step s) Safe := by
  cases hs : s.schedule with
  | nil => exact ⟨s, step_of_schedule_nil hs, h⟩
  | cons ev rest =>
    have hfetched : Safe { s with schedule := rest, inputs := ev.inputs } := { h with }
    cases hd : decode ev.signal with
    | ok i =>
      rw [step_of_decode_ok hs hd]
      exact exec_safe i hfetched
    | error e => exact ⟨_, step_of_decode_error hs hd, (takeUndecoded_keepsControl _ e).safe hfetched⟩

/-- Settles O58: the schedule is not part of the invariant, every instruction keeps it, and so does a signal that
decodes to none. -/
theorem stepKeepsSafe : Obligations.StepKeepsSafe :=
  fun _ h => step_safe h

/-- Settles O57: the reset state is a cleared block. -/
theorem resetIsSafe : Obligations.ResetIsSafe :=
  ⟨clearBlock_safe State.reset, execReset_safe⟩

/-! ### The mode -/

/-- What opening the wait does: an entry, or `STICKY.SEQ_PENDING` and its event (R195). -/
theorem startWait_cases (s : State) : (∃ p, startWait s = s.withPend p) ∨
    startWait s = emit .seqPending (setSticky { s.pss.sticky with seqPending := true } s) := by
  unfold startWait
  obtain ⟨-, h⟩ | ⟨-, h⟩ :=
    beginWait_cases s.cfg.params.nodeRadioId s.pss.msgCounter.toNat s.inputs.now s
  · exact .inr (by rw [h])
  · exact .inl ⟨_, by rw [h]; rfl⟩

theorem startWait_pss (s : State) : ∃ st, (startWait s).pss = { s.pss with sticky := st } := by
  obtain ⟨p, h⟩ | h := startWait_cases s <;> exact ⟨_, by rw [h]; rfl⟩

theorem startWait_sent (s : State) : (startWait s).out.sent = s.out.sent := by
  obtain ⟨p, h⟩ | h := startWait_cases s <;> rw [h] <;> rfl

/-- R195: a transmission moves the counter on by one, and `ASTATE` to AWAIT_ACK. -/
theorem transmit_pss (r : List Byte) (s : State) : ∃ st, (finishTransmit (startWait (send r s))).pss =
    { s.pss with sticky := st, msgCounter := s.pss.msgCounter + 1, astate := .awaitAck } := by
  obtain ⟨st, h⟩ := startWait_pss (send r s)
  exact ⟨st, by simp only [finishTransmit, withPss_pss, h, send_pss]⟩

theorem StateStep.mode {s t : State} (h : StateStep s t) : t.pss.mode = s.pss.mode := by
  cases h with
  | transmits r _ _ =>
    obtain ⟨st, hpss⟩ := transmit_pss r s
    rw [hpss]
  | relays _ =>
    obtain ⟨st, hpss⟩ := forwardOverheard_pss s
    simp only [stepRelay, withPss_pss, hpss]
  | _ => rfl

theorem tick_mode {s : State} (h : s.pss.reqStandby = false) : (tick s).pss.mode = s.pss.mode := by
  have hbefore := (ticksUpToReceive_frame_of_not_toggles h).mode
  obtain ⟨-, -, hstep⟩ | ⟨-, htick⟩ := tick_cases s
  · exact hstep.mode.trans hbefore
  · rw [htick, hbefore]

theorem standbyPhase_true_mode (s : State) : (standbyPhase true s).pss.mode = s.pss.mode.toggle := by
  cases hm : s.pss.mode with
  | standby => rw [standbyPhase_toActive hm]; rfl
  | active => rw [standbyPhase_toStandby hm]; rfl

theorem execReset_mode (s : State) :
    Answers (execReset s) fun t => t.pss.mode = .active ↔ s.inputs.switchActive = true := by
  cases h : s.inputs.switchActive with
  | false => exact ⟨_, execReset_standby h, nofun, nofun⟩
  | true => exact ⟨_, execReset_active h, fun _ => rfl, fun _ => standbyPhase_true_mode _⟩

/-- Settles O50: outside RESET and TICKs the mode stays, and in a TICK with no standby request no phase writes it. -/
theorem modeChangesOnlyByToggle : Obligations.ModeChangesOnlyByToggle := by
  refine ⟨⟨rfl, rfl⟩, fun i s => ?_⟩
  obtain rfl | ⟨sb, pn, rfl⟩ | hk := reset_or_tick_or_keepsControl i
  · exact (execReset_mode s).mono fun t ht _ => .inl ⟨rfl, ht⟩
  · refine ⟨_, rfl, fun hne => .inr ⟨sb, pn, rfl, ?_⟩⟩
    by_contra hreq
    exact hne (tick_mode (Bool.eq_false_iff.mpr hreq))
  · exact (hk s).mono fun t k hne => absurd (by rw [k.pss]) hne

/-! ### The message counter -/

theorem standbyPhase_msgCounter (b : Bool) (s : State) :
    (standbyPhase b s).pss.msgCounter = s.pss.msgCounter := by
  cases b with
  | false => rfl
  | true =>
    cases hm : s.pss.mode with
    | standby => rw [standbyPhase_toActive hm]; rfl
    | active => rw [standbyPhase_toStandby hm]; rfl

theorem ticksUpToReceive_msgCounter (s : State) :
    (ticksUpToReceive s).pss.msgCounter = s.pss.msgCounter := by
  rw [(ticksUpToReceive_frame s).msgCounter, standbyPhase_msgCounter]
  rfl

/-- The state step of a TICK that hands a packed beacon to `Send`, and moves the counter (R195). -/
def Transmits (s t : State) : Prop :=
  t.pss.msgCounter = s.pss.msgCounter + 1 ∧ s.pss.astate = .transmit ∧ s.inputs.battery.toNat ≤ 100 ∧
    ∃ b, t.out.sent = s.out.sent ++ [⟨b, s.inputs.sendOk⟩]

theorem battery_le_of_encodes {s : State} {r : List Byte} (h : encodeBeacon (beaconFields s) = .ok r) :
    s.inputs.battery.toNat ≤ 100 := by
  cases hr : inRange (beaconFields s) with
  | true =>
    obtain ⟨-, -, hb, -⟩ := (inRange_iff _).mp hr
    exact hb
  | false => simp [encodeBeacon_error hr] at h

theorem StateStep.msgCounter {s t : State} (h : StateStep s t) :
    t.pss.msgCounter = s.pss.msgCounter ∨ Transmits s t := by
  cases h with
  | transmits r ha hr =>
    obtain ⟨st, hpss⟩ := transmit_pss r s
    have hsent : (finishTransmit (startWait (send r s))).out.sent =
        s.out.sent ++ [⟨r, s.inputs.sendOk⟩] :=
      (startWait_sent _).trans (send_sent s r)
    exact .inr ⟨by rw [hpss], ha, battery_le_of_encodes hr, r, hsent⟩
  | relays _ =>
    obtain ⟨st, hpss⟩ := forwardOverheard_pss s
    exact .inl (by simp only [stepRelay, withPss_pss, hpss])
  | _ => exact .inl rfl

theorem tick_msgCounter (s : State) :
    (tick s).pss.msgCounter = s.pss.msgCounter ∨ (s.pss.mode = .active ∧ Transmits s (tick s)) := by
  obtain ⟨hm, hr, hstep⟩ | ⟨-, htick⟩ := tick_cases s
  · obtain ⟨-, -, ha, hc, hin, hsent⟩ := ticksUpToReceive_frame_of_not_toggles hr
    have h := hstep.msgCounter
    rw [Transmits, hc, ha, hin, hsent] at h
    exact h.imp_right fun htr => ⟨hm, htr⟩
  · exact .inl (by rw [htick, ticksUpToReceive_msgCounter])

theorem execReset_msgCounter (s : State) : Answers (execReset s) fun t => t.pss.msgCounter = 0 := by
  cases h : s.inputs.switchActive with
  | false => exact ⟨_, execReset_standby h, rfl⟩
  | true => exact ⟨_, execReset_active h, standbyPhase_msgCounter true _⟩

/-- Settles O51: of all that a TICK can do, only a transmission writes the counter. -/
theorem counterMovesByTransmitting : Obligations.CounterMovesByTransmitting := by
  intro i s
  obtain rfl | ⟨sb, pn, rfl⟩ | hk := reset_or_tick_or_keepsControl i
  · exact (execReset_msgCounter s).mono fun t ht => .inr (.inl ⟨rfl, ht⟩)
  · refine ⟨_, rfl, (tick_msgCounter _).imp_right fun ⟨hm, hc, ha, hb, hsent⟩ => .inr ?_⟩
    exact ⟨hc, ⟨sb, pn, rfl⟩, hm, ha, hb, hsent⟩
  · exact (hk s).mono fun t k => .inl (by rw [k.pss])

/-! ### The sticky bits -/

/-- The bits of `STICKY` and `FIX_VALID` that are 1 stay 1 (R25, R38). -/
structure Accumulates (s t : State) : Prop where
  rxInvalidSize : s.pss.sticky.rxInvalidSize = true → t.pss.sticky.rxInvalidSize = true
  seqRange      : s.pss.sticky.seqRange = true → t.pss.sticky.seqRange = true
  seqPending    : s.pss.sticky.seqPending = true → t.pss.sticky.seqPending = true
  relayDrop     : s.pss.sticky.relayDrop = true → t.pss.sticky.relayDrop = true
  sendFail      : s.pss.sticky.sendFail = true → t.pss.sticky.sendFail = true
  fixValid      : s.pss.fixValid = true → t.pss.fixValid = true

theorem Accumulates.trans {s t u : State} (h : Accumulates s t) (k : Accumulates t u) : Accumulates s u where
  rxInvalidSize := k.rxInvalidSize ∘ h.rxInvalidSize
  seqRange := k.seqRange ∘ h.seqRange
  seqPending := k.seqPending ∘ h.seqPending
  relayDrop := k.relayDrop ∘ h.relayDrop
  sendFail := k.sendFail ∘ h.sendFail
  fixValid := k.fixValid ∘ h.fixValid

/-- Nothing is lost where the sticky bits and `FIX_VALID` are kept. -/
theorem Accumulates.of_kept {s t : State} (hs : t.pss.sticky = s.pss.sticky)
    (hf : t.pss.fixValid = s.pss.fixValid) : Accumulates s t := by
  constructor <;> simp only [hs, hf, imp_self]

theorem standbyPhase_accumulates (b : Bool) (s : State) : Accumulates s (standbyPhase b s) := by
  cases b with
  | false => exact .of_kept rfl rfl
  | true =>
    cases hm : s.pss.mode with
    | standby => rw [standbyPhase_toActive hm]; exact .of_kept rfl rfl
    | active => rw [standbyPhase_toStandby hm]; exact .of_kept rfl rfl

theorem panicPhase_accumulates (b : Bool) (s : State) : Accumulates s (panicPhase b s) := by
  rw [panicPhase_eq]
  exact .of_kept rfl rfl

theorem gpsPhase_accumulates (s : State) : Accumulates s (gpsPhase s) := by
  unfold gpsPhase
  split
  · split_ifs
    · exact ⟨id, id, id, id, id, fun _ => rfl⟩
    · exact .of_kept rfl rfl
  · exact .of_kept rfl rfl

theorem Received.accumulates {s t : State} (h : Received s t) : Accumulates s t := by
  cases h with
  | invalid n _ => exact ⟨fun _ => rfl, id, id, id, id, id⟩
  | _ => exact .of_kept rfl rfl

theorem receivePhase_accumulates (s : State) : Accumulates s (receivePhase s) := by
  have h : Accumulates s (s.withRxQueue s.rxQueue.tail) := .of_kept rfl rfl
  exact h.trans (receivePhase_received s).accumulates

theorem ticksUpToReceive_accumulates (s : State) : Accumulates s (ticksUpToReceive s) := by
  have hdrain : Accumulates s (drainRequests s) := .of_kept rfl rfl
  exact (((hdrain.trans (standbyPhase_accumulates _ _)).trans (panicPhase_accumulates _ _)).trans
    (gpsPhase_accumulates _)).trans (receivePhase_accumulates _)

theorem send_accumulates (r : List Byte) (s : State) : Accumulates s (send r s) := by
  unfold send
  split_ifs
  · exact .of_kept rfl rfl
  · exact ⟨id, id, id, id, fun _ => rfl, id⟩

theorem startWait_accumulates (s : State) : Accumulates s (startWait s) := by
  obtain ⟨p, h⟩ | h := startWait_cases s
  · rw [h]; exact .of_kept rfl rfl
  · rw [h]; exact ⟨id, id, fun _ => rfl, id, id, id⟩

theorem forwardOverheard_accumulates (s : State) : Accumulates s (forwardOverheard s) := by
  obtain h | ⟨r, h⟩ | ⟨e, h⟩ := forwardOverheard_cases s
  · rw [h]; exact .of_kept rfl rfl
  · rw [h]; exact (send_accumulates r s).trans (.of_kept rfl rfl)
  · rw [h]; exact ⟨id, id, id, fun _ => rfl, id, id⟩

theorem StateStep.accumulates {s t : State} (h : StateStep s t) : Accumulates s t := by
  cases h with
  | transmitFails _ => exact ⟨id, fun _ => rfl, id, id, id, id⟩
  | transmits r _ _ =>
    exact ((send_accumulates r s).trans (startWait_accumulates _)).trans (.of_kept rfl rfl)
  | relays _ => exact (forwardOverheard_accumulates s).trans (.of_kept rfl rfl)
  | _ => exact .of_kept rfl rfl

theorem tick_accumulates (s : State) : Accumulates s (tick s) := by
  have hbefore := ticksUpToReceive_accumulates s
  obtain ⟨-, -, hstep⟩ | ⟨-, htick⟩ := tick_cases s
  · exact hbefore.trans hstep.accumulates
  · rw [htick]; exact hbefore

theorem exec_accumulates {i : Instr} (hi : i ≠ .reset) (s : State) :
    Answers (exec i s) (Accumulates s) := by
  obtain rfl | ⟨sb, pn, rfl⟩ | hk := reset_or_tick_or_keepsControl i
  · exact absurd rfl hi
  · have hlatch : Accumulates s (latchPanicEdge pn (latchStandbyEdge sb s)) := .of_kept rfl rfl
    exact ⟨_, rfl, hlatch.trans (tick_accumulates _)⟩
  · exact (hk s).mono fun t k => .of_kept (by rw [k.pss]) (by rw [k.pss])

/-- Settles O52: the TICK path only ever sets these bits, and no other instruction but RESET writes them. -/
theorem stickyBitsAccumulate : Obligations.StickyBitsAccumulate := fun _ s hi =>
  (exec_accumulates hi s).mono fun _ h =>
    ⟨h.rxInvalidSize, h.seqRange, h.seqPending, h.relayDrop, h.sendFail, h.fixValid⟩

/-! ### Routing metadata -/

section eraseRouting
variable (s : State)

theorem eraseRouting_idem : eraseRouting (eraseRouting s) = eraseRouting s := by
  simp [eraseRouting, Function.comp_def]

/-! The shared operations commute with taking the metadata away: they neither read nor write it, or they carry it
along (R358). -/

theorem frameArrives_eraseRouting (b : List Byte) :
    frameArrives b (eraseRouting s) = eraseRouting (frameArrives b s) := by
  simp [frameArrives, eraseRouting, State.withRxQueue]

theorem send_eraseRouting (b : List Byte) : send b (eraseRouting s) = eraseRouting (send b s) := by
  simp only [send, apply_ite eraseRouting]
  rfl

theorem startWait_eraseRouting : startWait (eraseRouting s) = eraseRouting (startWait s) := by
  unfold startWait beginWait
  cases hv : s.pend.valid <;> simp only [eraseRouting, hv] <;> rfl

theorem onAckReceived_eraseRouting (rid mid : Nat) : onAckReceived rid mid (eraseRouting s) =
    (onAckReceived rid mid s).map id eraseRouting := by
  simp only [onAckReceived, apply_ite (Prod.map id eraseRouting)]
  rfl

theorem pollTimeout_eraseRouting (t : Word) : pollTimeout t (eraseRouting s) =
    (pollTimeout t s).map id eraseRouting := by
  simp only [pollTimeout, apply_ite (Prod.map id eraseRouting)]
  rfl

/-! So does every phase of a TICK. -/

theorem standbyPhase_eraseRouting (b : Bool) :
    standbyPhase b (eraseRouting s) = eraseRouting (standbyPhase b s) := by
  simp only [standbyPhase, apply_ite eraseRouting]
  rfl

theorem panicPhase_eraseRouting (b : Bool) :
    panicPhase b (eraseRouting s) = eraseRouting (panicPhase b s) := by
  rw [panicPhase_eq, panicPhase_eq]
  rfl

theorem gpsPhase_eraseRouting : gpsPhase (eraseRouting s) = eraseRouting (gpsPhase s) := by
  rw [gpsPhase_eq, gpsPhase_eq]
  rfl

theorem rxAck_eraseRouting (b : List Byte) : rxAck b (eraseRouting s) = eraseRouting (rxAck b s) := by
  have hcfg : (eraseRouting s).cfg = s.cfg := rfl
  unfold rxAck
  rw [hcfg]
  cases decodeAck s.cfg.params.ackLayout b with
  | error e => rfl
  | ok ids =>
    simp only [onAckReceived_eraseRouting, apply_ite eraseRouting]
    rfl

theorem takeFrame_eraseRouting (b : List Byte) :
    takeFrame b (eraseRouting s) = eraseRouting (takeFrame b s) := by
  simp only [takeFrame, rxBeacon, rxAck_eraseRouting, apply_ite eraseRouting]
  rfl

theorem receivePhase_eraseRouting : receivePhase (eraseRouting s) = eraseRouting (receivePhase s) := by
  cases h : s.rxQueue with
  | nil => simp [receivePhase, h, eraseRouting]
  | cons f rest =>
    have hq : (eraseRouting s).rxQueue = ⟨f.bytes, []⟩ :: rest.map fun g => { g with routing := [] } := by
      simp [eraseRouting, h]
    simp only [receivePhase, h, hq]
    exact takeFrame_eraseRouting (s.withRxQueue rest) f.bytes

theorem ticksUpToReceive_eraseRouting :
    ticksUpToReceive (eraseRouting s) = eraseRouting (ticksUpToReceive s) := by
  have hdrain : drainRequests (eraseRouting s) = eraseRouting (drainRequests s) := rfl
  unfold ticksUpToReceive
  rw [hdrain, standbyPhase_eraseRouting, panicPhase_eraseRouting, gpsPhase_eraseRouting,
    receivePhase_eraseRouting]
  rfl

theorem stepIdle_eraseRouting : stepIdle (eraseRouting s) = eraseRouting (stepIdle s) := by
  simp only [stepIdle, apply_ite eraseRouting]
  rfl

theorem stepTransmit_eraseRouting : stepTransmit (eraseRouting s) = eraseRouting (stepTransmit s) := by
  have hfields : beaconFields (eraseRouting s) = beaconFields s := rfl
  unfold stepTransmit
  rw [hfields]
  cases encodeBeacon (beaconFields s) with
  | error e => rfl
  | ok r =>
    simp only [send_eraseRouting, startWait_eraseRouting]
    rfl

theorem stepAwaitAck_eraseRouting : stepAwaitAck (eraseRouting s) = eraseRouting (stepAwaitAck s) := by
  simp only [stepAwaitAck, pollTimeout_eraseRouting, apply_ite eraseRouting]
  rfl

theorem forwardOverheard_eraseRouting :
    forwardOverheard (eraseRouting s) = eraseRouting (forwardOverheard s) := by
  have hovh : (eraseRouting s).ovh = s.ovh := rfl
  simp only [forwardOverheard, hovh, apply_ite eraseRouting]
  cases relayFrame s.ovh with
  | ok r =>
    simp only [send_eraseRouting]
    rfl
  | error e => rfl

theorem stepRelay_eraseRouting : stepRelay (eraseRouting s) = eraseRouting (stepRelay s) := by
  unfold stepRelay
  rw [forwardOverheard_eraseRouting]
  rfl

theorem stepPhase_eraseRouting : stepPhase (eraseRouting s) = eraseRouting (stepPhase s) := by
  have hpss : (eraseRouting s).pss = s.pss := rfl
  unfold stepPhase
  rw [hpss]
  cases s.pss.astate with
  | idle => exact stepIdle_eraseRouting s
  | transmit => exact stepTransmit_eraseRouting s
  | awaitAck => exact stepAwaitAck_eraseRouting s
  | relay => exact stepRelay_eraseRouting s

theorem tick_eraseRouting : tick (eraseRouting s) = eraseRouting (tick s) := by
  simp only [tick, ticksUpToReceive_eraseRouting, stepPhase_eraseRouting, apply_ite eraseRouting]
  rfl

/-! So do the ACT commands in STANDBY. -/

theorem whenStandby_eraseRouting {run : State → State}
    (h : run (eraseRouting s) = eraseRouting (run s)) :
    whenStandby run (eraseRouting s) = eraseRouting (whenStandby run s) := by
  simp only [whenStandby, h, apply_ite eraseRouting]
  rfl

theorem beginWaitCommand_eraseRouting :
    beginWaitCommand (eraseRouting s) = eraseRouting (beginWaitCommand s) := by
  simp only [beginWaitCommand, beginWait, apply_ite eraseRouting]
  cases hv : s.pend.valid <;> simp only [eraseRouting, hv] <;> rfl

theorem ackReceivedCommand_eraseRouting :
    ackReceivedCommand (eraseRouting s) = eraseRouting (ackReceivedCommand s) := by
  simp only [ackReceivedCommand, onAckReceived_eraseRouting]
  rfl

theorem pollTimeoutCommand_eraseRouting :
    pollTimeoutCommand (eraseRouting s) = eraseRouting (pollTimeoutCommand s) := by
  simp only [pollTimeoutCommand, pollTimeout_eraseRouting]
  rfl

end eraseRouting

/-- A meaning whose next state, but for routing metadata, does not depend on routing metadata. -/
def IgnoresRouting (run : State → Host.Outcome State Fault Refusal) : Prop :=
  ∀ s, Answers (run s) fun t => run (eraseRouting s) = .next (eraseRouting t)

theorem ignoresRouting_of_commutes {f : State → State}
    (h : ∀ s, f (eraseRouting s) = eraseRouting (f s)) : IgnoresRouting fun s => .next (f s) :=
  fun s => ⟨f s, rfl, congrArg _ (h s)⟩

theorem HostOnly.ignoresRouting {run : State → Host.Outcome State Fault Refusal} (h : HostOnly run) :
    IgnoresRouting run := by
  intro s
  obtain ⟨host, hrun, herased⟩ := h s (eraseRouting s) rfl rfl
  exact ⟨s.withHost host, hrun, herased⟩

theorem runCommand_ignoresRouting (c : Command) : IgnoresRouting (runCommand c) := by
  cases c with
  | nop => exact execNop_hostOnly.ignoresRouting
  | encodeBeacon => exact execEncodeBeacon_hostOnly.ignoresRouting
  | decodeBeacon => exact execDecodeBeacon_hostOnly.ignoresRouting
  | encodeAck => exact execEncodeAck_hostOnly.ignoresRouting
  | decodeAck => exact execDecodeAck_hostOnly.ignoresRouting
  | repackLegacy => exact execRepackLegacy_hostOnly.ignoresRouting
  | getRadioId => exact execGetRadioId_hostOnly.ignoresRouting
  | getMessageId => exact execGetMessageId_hostOnly.ignoresRouting
  | beginWait =>
    exact ignoresRouting_of_commutes fun s => whenStandby_eraseRouting s (beginWaitCommand_eraseRouting s)
  | ackReceived =>
    exact ignoresRouting_of_commutes fun s => whenStandby_eraseRouting s (ackReceivedCommand_eraseRouting s)
  | pollTimeout =>
    exact ignoresRouting_of_commutes fun s => whenStandby_eraseRouting s (pollTimeoutCommand_eraseRouting s)
  | abortWait => exact ignoresRouting_of_commutes fun s => whenStandby_eraseRouting s rfl

theorem execWr_ignoresRouting (index : BitVec 6) (data : Word) : IgnoresRouting (execWr index data) := by
  unfold execWr issue
  split_ifs
  · cases decodeCommand data with
    | some c => exact runCommand_ignoresRouting c
    | none => exact ignoresRouting_of_commutes fun _ => rfl
  · exact ignoresRouting_of_commutes fun _ => rfl

theorem execReset_ignoresRouting : IgnoresRouting execReset := by
  intro s
  cases h : s.inputs.switchActive with
  | false => exact ⟨_, execReset_standby h, execReset_standby (s := eraseRouting s) h⟩
  | true =>
    refine ⟨_, execReset_active h, (execReset_active (s := eraseRouting s) h).trans ?_⟩
    exact congrArg _ (standbyPhase_eraseRouting (clearBlock s) true)

/-- Every instruction ignores routing metadata. -/
theorem exec_ignoresRouting (i : Instr) : IgnoresRouting (exec i) := by
  cases i with
  | nop => exact runCommand_ignoresRouting .nop
  | encodeBeacon => exact runCommand_ignoresRouting .encodeBeacon
  | decodeBeacon => exact runCommand_ignoresRouting .decodeBeacon
  | encodeAck => exact runCommand_ignoresRouting .encodeAck
  | decodeAck => exact runCommand_ignoresRouting .decodeAck
  | repackLegacy => exact runCommand_ignoresRouting .repackLegacy
  | getRadioId => exact runCommand_ignoresRouting .getRadioId
  | getMessageId => exact runCommand_ignoresRouting .getMessageId
  | beginWait => exact runCommand_ignoresRouting .beginWait
  | ackReceived => exact runCommand_ignoresRouting .ackReceived
  | pollTimeout => exact runCommand_ignoresRouting .pollTimeout
  | abortWait => exact runCommand_ignoresRouting .abortWait
  | rd index => exact ignoresRouting_of_commutes fun _ => rfl
  | wr index data => exact execWr_ignoresRouting index data
  | tick sb pn =>
    exact ignoresRouting_of_commutes fun s => tick_eraseRouting (latchPanicEdge pn (latchStandbyEdge sb s))
  | edgeStandby pn => exact ignoresRouting_of_commutes fun _ => rfl
  | edgePanic => exact ignoresRouting_of_commutes fun _ => rfl
  | reset => exact execReset_ignoresRouting
  | beaconLegacy fields => exact ignoresRouting_of_commutes fun s => frameArrives_eraseRouting s _
  | beaconNew fields => exact ignoresRouting_of_commutes fun s => frameArrives_eraseRouting s _
  | ackLegacy rid mid => exact ignoresRouting_of_commutes fun s => frameArrives_eraseRouting s _
  | ackNew rid res mid => exact ignoresRouting_of_commutes fun s => frameArrives_eraseRouting s _

/-- Settles O54: running an instruction commutes with taking the metadata away. -/
theorem routingIsNeverRead : Obligations.RoutingIsNeverRead := by
  intro i s
  obtain ⟨t, ht, herased⟩ := exec_ignoresRouting i s
  exact ⟨t, _, ht, herased, eraseRouting_idem t⟩

end Sys2Proof.Machine
end

section
/-! SUPPORT. Proof of the statement cited from 20_memory.md: a TICK has no part in the host port registers (R84,
R307), since each of its phases commutes with replacing their contents. -/

namespace Sys2Proof.Machine

/-- An operation that neither reads nor writes the host port registers: with other contents in them it answers the
same state but for those contents. -/
def IgnoresHost (f : State → State) : Prop := ∀ s h, f (s.withHost h) = (f s).withHost h

/-- What ignores the host port registers leaves them as they are: put back their own contents. -/
theorem IgnoresHost.host_eq {f : State → State} (hf : IgnoresHost f) (s : State) : (f s).host = s.host := by
  calc (f s).host = ((f s).withHost s.host).host := by rw [← hf s s.host, withHost_self]
    _ = s.host := rfl

theorem IgnoresHost.comp {f g : State → State} (hg : IgnoresHost g) (hf : IgnoresHost f) :
    IgnoresHost (g ∘ f) := fun s h => (congrArg g (hf s h)).trans (hg (f s) h)

/-! ### The operations a TICK shares with the ACT commands -/

theorem send_ignoresHost (b : List Byte) : IgnoresHost (send b) := by
  intro s h
  rw [send_eq, send_eq]
  rfl

theorem startWait_ignoresHost : IgnoresHost startWait := by
  intro s h
  unfold startWait beginWait
  cases hv : s.pend.valid <;> simp only [State.withHost, hv] <;> rfl

theorem onAckReceived_withHost (rid mid : Nat) (s : State) (h : HostPort) :
    onAckReceived rid mid (s.withHost h) = (onAckReceived rid mid s).map id (·.withHost h) := by
  simp only [onAckReceived, apply_ite (Prod.map id (State.withHost · h))]
  rfl

theorem pollTimeout_withHost (t : Word) (s : State) (h : HostPort) :
    pollTimeout t (s.withHost h) = (pollTimeout t s).map id (·.withHost h) := by
  simp only [pollTimeout, apply_ite (Prod.map id (State.withHost · h))]
  rfl

/-! ### The phases before the state step -/

theorem standbyPhase_ignoresHost (b : Bool) : IgnoresHost (standbyPhase b) := by
  intro s h
  simp only [standbyPhase, apply_ite (State.withHost · h)]
  rfl

theorem panicPhase_ignoresHost (b : Bool) : IgnoresHost (panicPhase b) := by
  intro s h
  rw [panicPhase_eq, panicPhase_eq]
  rfl

theorem gpsPhase_ignoresHost : IgnoresHost gpsPhase := by
  intro s h
  rw [gpsPhase_eq, gpsPhase_eq]
  rfl

theorem rxBeacon_ignoresHost (b : List Byte) : IgnoresHost (rxBeacon b) := by
  intro s h
  simp only [rxBeacon, apply_ite (State.withHost · h)]
  rfl

theorem rxAck_ignoresHost (b : List Byte) : IgnoresHost (rxAck b) := by
  intro s h
  unfold rxAck
  rw [withHost_cfg]
  cases decodeAck s.cfg.params.ackLayout b with
  | error e => rfl
  | ok ids =>
    simp only [onAckReceived_withHost, apply_ite (State.withHost · h)]
    rfl

theorem takeFrame_ignoresHost (b : List Byte) : IgnoresHost (takeFrame b) := by
  intro s h
  simp only [takeFrame, rxBeacon_ignoresHost b s h, rxAck_ignoresHost b s h, apply_ite (State.withHost · h)]
  rfl

theorem receivePhase_ignoresHost : IgnoresHost receivePhase := by
  intro s h
  unfold receivePhase
  rw [withHost_rxQueue]
  cases s.rxQueue with
  | nil => rfl
  | cons f rest => exact takeFrame_ignoresHost f.bytes (s.withRxQueue rest) h

/-- Phases 2 to 5 run one after the other, on the drained state (R181). -/
theorem ticksUpToReceive_ignoresHost : IgnoresHost ticksUpToReceive := fun s h =>
  have phases := receivePhase_ignoresHost.comp (gpsPhase_ignoresHost.comp
    ((panicPhase_ignoresHost s.pss.reqPanic).comp (standbyPhase_ignoresHost s.pss.reqStandby)))
  phases (drainRequests s) h

/-! ### The state step -/

theorem stepIdle_ignoresHost : IgnoresHost stepIdle := by
  intro s h
  simp only [stepIdle, apply_ite (State.withHost · h)]
  rfl

theorem stepTransmit_ignoresHost : IgnoresHost stepTransmit := by
  intro s h
  have hfields : beaconFields (s.withHost h) = beaconFields s := rfl
  unfold stepTransmit
  rw [hfields]
  cases encodeBeacon (beaconFields s) with
  | error e => rfl
  | ok r => exact congrArg finishTransmit (startWait_ignoresHost.comp (send_ignoresHost r) s h)

theorem stepAwaitAck_ignoresHost : IgnoresHost stepAwaitAck := by
  intro s h
  simp only [stepAwaitAck, pollTimeout_withHost, apply_ite (State.withHost · h)]
  rfl

theorem forwardOverheard_ignoresHost : IgnoresHost forwardOverheard := by
  intro s h
  simp only [forwardOverheard, withHost_ovh, apply_ite (State.withHost · h)]
  cases relayFrame s.ovh with
  | ok r =>
    simp only [send_ignoresHost r s h]
    rfl
  | error e => rfl

theorem stepRelay_ignoresHost : IgnoresHost stepRelay := by
  intro s h
  unfold stepRelay
  rw [forwardOverheard_ignoresHost]
  rfl

theorem stepPhase_ignoresHost : IgnoresHost stepPhase := by
  intro s h
  unfold stepPhase
  rw [withHost_pss]
  cases s.pss.astate with
  | idle => exact stepIdle_ignoresHost s h
  | transmit => exact stepTransmit_ignoresHost s h
  | awaitAck => exact stepAwaitAck_ignoresHost s h
  | relay => exact stepRelay_ignoresHost s h

/-! ### The TICK -/

/-- Whether phase 6 runs is read off `MODE` and the standby request, never off the host port. -/
theorem tick_ignoresHost : IgnoresHost tick := by
  intro s h
  simp only [tick, ticksUpToReceive_ignoresHost s h, stepPhase_ignoresHost _ h, apply_ite (State.withHost · h)]
  rfl

/-- Latching the edges of the strobe vector writes the request flags alone (R210 to R212). -/
theorem latchEdges_ignoresHost (sb pn : Bool) : IgnoresHost fun s => latchPanicEdge pn (latchStandbyEdge sb s) :=
  fun _ _ => rfl

/-- Settles O35: latching the edges and the TICK itself both commute with replacing the host port's contents. -/
theorem tickIgnoresHostPort : Obligations.TickIgnoresHostPort := by
  intro s h sb pn
  have hrun := tick_ignoresHost.comp (latchEdges_ignoresHost sb pn)
  exact ⟨_, rfl, hrun.host_eq s, congrArg _ (hrun s h)⟩

end Sys2Proof.Machine
end

section
/-! SUPPORT. Proofs of the statements cited from 30_encoding.md: what the insertion of R106 writes the extraction of
R105 reads, and back, for the frame forms; the command words, address phases and strobe vectors (R110 to R114); and a
step that has no instruction to run. -/

namespace Sys2Proof

open Sys2Proof.Claims

/-! ### Little-endian fields (R11, R72) -/

@[simp] theorem byteAt_cons_zero (x : Byte) (b : List Byte) : byteAt (x :: b) 0 = x.toNat := rfl

@[simp] theorem byteAt_cons_succ (x : Byte) (b : List Byte) (i : Nat) : byteAt (x :: b) (i + 1) = byteAt b i := rfl

theorem byteOf_byteAt {b : List Byte} {i : Nat} (h : i < b.length) : byteOf (byteAt b i) = b[i] := by
  simp [byteOf, byteAt, h]

theorem byte_or_shiftLeft (c a : Nat) (h : c < 256) : c ||| (a <<< 8) = a * 256 + c := by
  rw [Nat.or_comm, shiftLeft_or_byte a c h]

/-- The disjunction of a multiple of 128 and a seven-bit value is their sum. -/
theorem shiftLeft_or_seven (c a : Nat) (h : a < 128) : (c <<< 7) ||| a = c * 128 + a := by
  rw [Nat.shiftLeft_eq, Nat.mul_comm, ← Nat.two_pow_add_eq_or_of_lt (i := 7) (by omega) c]

@[simp] theorem memRead_one (b : List Byte) (o : Nat) : memRead b o 1 = byteAt b o := by
  simp [memRead]

theorem memRead_cons (x : Byte) (b : List Byte) (o n : Nat) : memRead (x :: b) (o + 1) n = memRead b o n := by
  induction n generalizing o with
  | zero => rfl
  | succ n ih => simp only [memRead, byteAt_cons_succ, ih]

theorem memRead_leBytes (n v : Nat) (t : List Byte) (h : v < 256 ^ n) : memRead (leBytes n v ++ t) 0 n = v := by
  induction n generalizing v with
  | zero => simp only [memRead]; omega
  | succ n ih =>
    have hq : v >>> 8 < 256 ^ n := by
      rw [Nat.pow_succ] at h
      rw [Nat.shiftRight_eq_div_pow]
      omega
    rw [leBytes, List.cons_append, memRead, memRead_cons, ih _ hq, byteAt_cons_zero, byteOf_toNat,
      byte_or_shiftLeft _ _ (by omega), Nat.shiftRight_eq_div_pow]
    omega

/-- Reading back a field that stands after `p` in a sequence. -/
theorem memRead_field {b p t : List Byte} {o n v : Nat} (hb : b = p ++ (leBytes n v ++ t)) (ho : p.length = o)
    (hv : v < 256 ^ n) : memRead b o n = v := by
  subst hb ho
  induction p with
  | nil => exact memRead_leBytes n v t hv
  | cons x p ih => exact (memRead_cons x _ _ n).trans ih

/-- Writing back the field read at offset `o` gives the bytes that stand there. -/
theorem leBytes_memRead {b : List Byte} {o n : Nat} (h : o + n ≤ b.length) :
    leBytes n (memRead b o n) = (b.drop o).take n := by
  induction n generalizing o with
  | zero => rfl
  | succ n ih =>
    have hlt := byteAt_lt b o
    have hlow : byteOf (memRead b o (n + 1)) = b[o] := by
      rw [← byteOf_byteAt (by omega)]
      apply BitVec.eq_of_toNat_eq
      rw [memRead, byte_or_shiftLeft _ _ hlt, byteOf_toNat, byteOf_toNat]
      omega
    have hrest : memRead b o (n + 1) >>> 8 = memRead b (o + 1) n := by
      rw [memRead, byte_or_shiftLeft _ _ hlt, Nat.shiftRight_eq_div_pow]
      omega
    rw [leBytes, hlow, hrest, ih (by omega), List.drop_eq_getElem_cons (show o < b.length by omega),
      List.take_succ_cons]

/-! ### The header of a frame (R101, R102, R104) -/

theorem decide_eq_one_toNat {n : Nat} (h : n < 2) : (decide (n = 1)).toNat = n := by
  interval_cases n <;> rfl

theorem insertAckNew_reads {rid mid : Nat} (bit : Bool) (t : List Byte) (hr : rid < 2 ^ 7) (hm : mid < 2 ^ 15) :
    formatBit (insertAckNew rid bit mid ++ t) = 1 ∧ byteAt (insertAckNew rid bit mid ++ t) 0 &&& 0x7F = rid ∧
      byteAt (insertAckNew rid bit mid ++ t) 1 >>> 7 = bit.toNat ∧
      wideMessageId (insertAckNew rid bit mid ++ t) = mid := by
  have hbit := Bool.toNat_lt bit
  have hhigh : mid >>> 8 < 128 := by rw [Nat.shiftRight_eq_div_pow]; omega
  have h0 : byteAt (insertAckNew rid bit mid ++ t) 0 = 128 + rid := by
    rw [insertAckNew, bit7_or rid hr, List.cons_append, byteAt_cons_zero, byteOf_toNat]
    omega
  have h1 : byteAt (insertAckNew rid bit mid ++ t) 1 = bit.toNat * 128 + mid / 256 := by
    rw [insertAckNew, shiftLeft_or_seven _ _ hhigh, List.cons_append, byteAt_cons_succ, List.cons_append,
      byteAt_cons_zero, byteOf_toNat, Nat.shiftRight_eq_div_pow]
    omega
  have h2 : byteAt (insertAckNew rid bit mid ++ t) 2 = mid % 256 := by
    simp [insertAckNew, and_0xFF]
  rw [formatBit, wideMessageId_eq, and_0x7F, h0, h1, h2]
  simp only [Nat.shiftRight_eq_div_pow]
  omega

theorem insertAckLegacy_reads {rid mid : Nat} (t : List Byte) (hr : rid < 2 ^ 15) (hm : mid < 2 ^ 8) :
    formatBit (insertAckLegacy rid mid ++ t) = 0 ∧ wideRadioId (insertAckLegacy rid mid ++ t) = rid ∧
      byteAt (insertAckLegacy rid mid ++ t) 2 = mid := by
  have h0 : byteAt (insertAckLegacy rid mid ++ t) 0 = rid / 256 := by
    rw [insertAckLegacy, List.cons_append, byteAt_cons_zero, byteOf_toNat, Nat.shiftRight_eq_div_pow]
    omega
  have h1 : byteAt (insertAckLegacy rid mid ++ t) 1 = rid % 256 := by
    simp [insertAckLegacy, and_0xFF]
  have h2 : byteAt (insertAckLegacy rid mid ++ t) 2 = mid := by
    simpa [insertAckLegacy] using hm
  refine ⟨?_, ?_, h2⟩
  · rw [formatBit, h0, Nat.shiftRight_eq_div_pow]
    omega
  · rw [wideRadioId_eq, h0, h1]
    omega

theorem byteOf_eq_iff (n : Nat) (x : Byte) : byteOf n = x ↔ n % 256 = x.toNat := by
  rw [← BitVec.toNat_inj, byteOf_toNat]

theorem exists_header {b : List Byte} (h : 3 ≤ b.length) : ∃ x y z t, b = x :: y :: z :: t := by
  match b, h with
  | x :: y :: z :: t, _ => exact ⟨x, y, z, t, rfl⟩

/-- R106 undoes R105 on the header of a new-format frame. -/
theorem insertAckNew_of_reads {b : List Byte} (hl : 3 ≤ b.length) (hf : formatBit b = 1) :
    insertAckNew (byteAt b 0 &&& 0x7F) (decide (byteAt b 1 >>> 7 = 1)) (wideMessageId b) = b.take 3 := by
  obtain ⟨x, y, z, t, rfl⟩ := exists_header hl
  have hx := x.isLt
  have hy := y.isLt
  have hz := z.isLt
  have hmid : wideMessageId (x :: y :: z :: t) = y.toNat % 128 * 256 + z.toNat := wideMessageId_eq _
  have hbit : (decide (y.toNat >>> 7 = 1)).toNat = y.toNat / 128 := by
    rw [Nat.shiftRight_eq_div_pow]
    exact decide_eq_one_toNat (by omega)
  have e0 : byteOf (0x80 ||| (x.toNat &&& 0x7F)) = x := by
    rw [formatBit, byteAt_cons_zero, Nat.shiftRight_eq_div_pow] at hf
    rw [byteOf_eq_iff, and_0x7F, bit7_or _ (by omega)]
    omega
  have e1 : byteOf ((y.toNat / 128) <<< 7 ||| (y.toNat % 128 * 256 + z.toNat) >>> 8) = y := by
    rw [byteOf_eq_iff, Nat.shiftRight_eq_div_pow, shiftLeft_or_seven _ _ (by omega)]
    omega
  have e2 : byteOf ((y.toNat % 128 * 256 + z.toNat) &&& 0xFF) = z := by
    rw [byteOf_eq_iff, and_0xFF]
    omega
  rw [insertAckNew, hmid, byteAt_cons_zero, byteAt_cons_succ, byteAt_cons_zero, hbit, e0, e1, e2]
  rfl

/-- R106 undoes R105 on the header of a legacy frame. -/
theorem insertAckLegacy_of_reads {b : List Byte} (hl : 3 ≤ b.length) (hf : formatBit b ≠ 1) :
    insertAckLegacy (wideRadioId b) (byteAt b 2) = b.take 3 := by
  obtain ⟨x, y, z, t, rfl⟩ := exists_header hl
  have hx := x.isLt
  have hy := y.isLt
  have hz := z.isLt
  have hrid : wideRadioId (x :: y :: z :: t) = x.toNat % 128 * 256 + y.toNat := wideRadioId_eq _
  have e0 : byteOf ((x.toNat % 128 * 256 + y.toNat) >>> 8) = x := by
    rw [formatBit, byteAt_cons_zero, Nat.shiftRight_eq_div_pow] at hf
    rw [byteOf_eq_iff, Nat.shiftRight_eq_div_pow]
    omega
  have e1 : byteOf ((x.toNat % 128 * 256 + y.toNat) &&& 0xFF) = y := by
    rw [byteOf_eq_iff, and_0xFF]
    omega
  have e2 : byteOf z.toNat = z := by
    rw [byteOf_eq_iff]
    omega
  rw [insertAckLegacy, hrid, byteAt_cons_succ, byteAt_cons_succ, byteAt_cons_zero, e0, e1, e2]
  rfl

/-! ### The tail of a beacon frame (R103) -/

theorem insertBeacon_tail_reads {f : FieldSet} (h : f.tailFits = true) :
    memRead (insertBeacon f) 3 4 = f.latitude ∧ memRead (insertBeacon f) 7 4 = f.longitude ∧
      byteAt (insertBeacon f) 11 = f.batteryPercent ∧ memRead (insertBeacon f) 12 4 = f.utcTimestamp := by
  obtain ⟨hlat, hlon, hbat, hutc⟩ := (tailFits_iff f).mp h
  have hsplit : insertBeacon f = beaconHeader f ++ (leBytes 4 f.latitude ++ (leBytes 4 f.longitude ++
      (leBytes 1 f.batteryPercent ++ (leBytes 4 f.utcTimestamp ++ [])))) := by
    simp only [insertBeacon, beaconTail, leBytes, List.append_assoc, List.append_nil]
  refine ⟨memRead_field hsplit (beaconHeader_length f) hlat, ?_, ?_, ?_⟩
  · rw [← List.append_assoc] at hsplit
    exact memRead_field hsplit (by simp) hlon
  · rw [← List.append_assoc, ← List.append_assoc] at hsplit
    rw [← memRead_one]
    exact memRead_field hsplit (by simp) hbat
  · rw [← List.append_assoc, ← List.append_assoc, ← List.append_assoc] at hsplit
    exact memRead_field hsplit (by simp) hutc

theorem take_drop_append_drop (b : List Byte) (o n : Nat) : (b.drop o).take n ++ b.drop (o + n) = b.drop o := by
  rw [← List.drop_drop, List.take_append_drop]

/-- R106 undoes R105 on the tail, which the two layouts share. -/
theorem beaconTail_extractBeacon {b : List Byte} (hl : b.length = 16) : beaconTail (extractBeacon b) = b.drop 3 := by
  have hreads : beaconTail (extractBeacon b) = leBytes 4 (memRead b 3 4) ++ leBytes 4 (memRead b 7 4) ++
      leBytes 1 (memRead b 11 1) ++ leBytes 4 (memRead b 12 4) := by
    rw [memRead_one]
    unfold extractBeacon
    split_ifs <;> rfl
  have hend : b.drop 16 = [] := List.drop_eq_nil_of_le hl.le
  calc beaconTail (extractBeacon b)
      = (b.drop 3).take 4 ++ ((b.drop 7).take 4 ++ ((b.drop 11).take 1 ++ ((b.drop 12).take 4 ++ b.drop 16))) := by
        rw [hreads, leBytes_memRead (by omega), leBytes_memRead (by omega), leBytes_memRead (by omega),
          leBytes_memRead (by omega), hend]
        simp only [List.append_assoc, List.append_nil]
    _ = b.drop 3 := by
        rw [take_drop_append_drop b 12 4, take_drop_append_drop b 11 1, take_drop_append_drop b 7 4,
          take_drop_append_drop b 3 4]

/-! ### Beacon frames: extraction and insertion -/

theorem extractBeacon_new {b : List Byte} (h : formatBit b = 1) : extractBeacon b =
    ⟨1, byteAt b 0 &&& 0x7F, byteAt b 1 >>> 7, wideMessageId b, memRead b 3 4, memRead b 7 4, byteAt b 11,
      memRead b 12 4⟩ := by
  rw [extractBeacon, if_pos h]

theorem extractBeacon_legacy {b : List Byte} (h : formatBit b ≠ 1) : extractBeacon b =
    ⟨0, wideRadioId b, 0, byteAt b 2, memRead b 3 4, memRead b 7 4, byteAt b 11, memRead b 12 4⟩ := by
  rw [extractBeacon, if_neg h]

theorem insertBeacon_new {f : FieldSet} (h : f.fitsNew = true) :
    insertBeacon f = insertAckNew f.radioId (decide (f.panic = 1)) f.messageId ++ beaconTail f := by
  rw [insertBeacon, beaconHeader_new h]

theorem insertBeacon_legacy {f : FieldSet} (h : f.formatFlag = 0) :
    insertBeacon f = insertAckLegacy f.radioId f.messageId ++ beaconTail f := by
  rw [insertBeacon, beaconHeader_legacy h]

theorem formatBit_insertBeacon_new {f : FieldSet} (h : f.fitsNew = true) : formatBit (insertBeacon f) = 1 := by
  obtain ⟨-, hr, -, hm, -⟩ := (fitsNew_iff f).mp h
  rw [insertBeacon_new h]
  exact (insertAckNew_reads _ _ hr hm).1

theorem formatBit_insertBeacon_legacy {f : FieldSet} (h : f.fitsLegacy = true) : formatBit (insertBeacon f) = 0 := by
  obtain ⟨hf, hr, -, hm, -⟩ := (fitsLegacy_iff f).mp h
  rw [insertBeacon_legacy hf]
  exact (insertAckLegacy_reads _ hr hm).1

theorem extractBeacon_insertBeacon_new {f : FieldSet} (h : f.fitsNew = true) : extractBeacon (insertBeacon f) = f := by
  obtain ⟨hflag, hr, hp, hm, htail⟩ := (fitsNew_iff f).mp h
  obtain ⟨hlat, hlon, hbat, hutc⟩ := insertBeacon_tail_reads htail
  obtain ⟨-, hrid, hpanic, hmid⟩ := insertAckNew_reads (decide (f.panic = 1)) (beaconTail f) hr hm
  rw [← insertBeacon_new h] at hrid hpanic hmid
  rw [extractBeacon_new (formatBit_insertBeacon_new h), hrid, hpanic, decide_eq_one_toNat hp, hmid, hlat, hlon, hbat,
    hutc, ← hflag]

theorem extractBeacon_insertBeacon_legacy {f : FieldSet} (h : f.fitsLegacy = true) :
    extractBeacon (insertBeacon f) = f := by
  obtain ⟨hflag, hr, hp, hm, htail⟩ := (fitsLegacy_iff f).mp h
  obtain ⟨hlat, hlon, hbat, hutc⟩ := insertBeacon_tail_reads htail
  obtain ⟨hbit, hrid, hmid⟩ := insertAckLegacy_reads (beaconTail f) hr hm
  rw [← insertBeacon_legacy hflag] at hbit hrid hmid
  rw [extractBeacon_legacy (by omega), hrid, hmid, hlat, hlon, hbat, hutc]
  cases f
  cases hflag
  cases hp
  rfl

theorem extractBeacon_tailFits (b : List Byte) : (extractBeacon b).tailFits = true := by
  rw [tailFits_iff]
  unfold extractBeacon
  split_ifs <;> exact ⟨memRead_four_lt b 3, memRead_four_lt b 7, byteAt_lt b 11, memRead_four_lt b 12⟩

theorem extractBeacon_fitsNew {b : List Byte} (h : formatBit b = 1) : (extractBeacon b).fitsNew = true := by
  have htail := extractBeacon_tailFits b
  have h0 : byteAt b 0 &&& 0x7F < 2 ^ 7 := by rw [and_0x7F]; omega
  have h1 : byteAt b 1 >>> 7 < 2 := by
    have := byteAt_lt b 1
    rw [Nat.shiftRight_eq_div_pow]
    omega
  rw [fitsNew_iff]
  rw [extractBeacon_new h] at htail ⊢
  exact ⟨rfl, h0, h1, wideMessageId_lt b, htail⟩

theorem extractBeacon_fitsLegacy {b : List Byte} (h : formatBit b ≠ 1) : (extractBeacon b).fitsLegacy = true := by
  have htail := extractBeacon_tailFits b
  rw [fitsLegacy_iff]
  rw [extractBeacon_legacy h] at htail ⊢
  exact ⟨rfl, wideRadioId_lt b, rfl, byteAt_lt b 2, htail⟩

/-- R106 undoes R105 on every sequence of sixteen bytes. -/
theorem insertBeacon_extractBeacon {b : List Byte} (hl : b.length = 16) : insertBeacon (extractBeacon b) = b := by
  have hheader : beaconHeader (extractBeacon b) = b.take 3 := by
    by_cases hf : formatBit b = 1
    · rw [beaconHeader_new (extractBeacon_fitsNew hf), extractBeacon_new hf, insertAckNew_of_reads (by omega) hf]
    · rw [extractBeacon_legacy hf, beaconHeader_legacy rfl, insertAckLegacy_of_reads (by omega) hf]
  rw [insertBeacon, hheader, beaconTail_extractBeacon hl, List.take_append_drop]

/-! ### Frame forms on the wire -/

theorem ackNew_wellFormed_iff (rid : Nat) (res : Bool) (mid : Nat) :
    (Instr.ackNew rid res mid).wellFormed = true ↔ rid < 2 ^ 7 ∧ mid < 2 ^ 15 := by
  rw [Instr.wellFormed, Bool.and_eq_true, decide_eq_true_iff, decide_eq_true_iff]

theorem ackLegacy_wellFormed_iff (rid mid : Nat) :
    (Instr.ackLegacy rid mid).wellFormed = true ↔ rid < 2 ^ 15 ∧ mid < 2 ^ 8 := by
  rw [Instr.wellFormed, Bool.and_eq_true, decide_eq_true_iff, decide_eq_true_iff]

theorem decodeWire_insertBeacon_new {f : FieldSet} (h : f.fitsNew = true) :
    decodeWire (insertBeacon f) = .ok (.beaconNew f) := by
  rw [decodeWire, if_pos (insertBeacon_length f), if_pos (formatBit_insertBeacon_new h),
    extractBeacon_insertBeacon_new h]

theorem decodeWire_insertBeacon_legacy {f : FieldSet} (h : f.fitsLegacy = true) :
    decodeWire (insertBeacon f) = .ok (.beaconLegacy f) := by
  have hf := formatBit_insertBeacon_legacy h
  rw [decodeWire, if_pos (insertBeacon_length f), if_neg (by omega), extractBeacon_insertBeacon_legacy h]

theorem decodeWire_insertAckNew {rid mid : Nat} (res : Bool) (hr : rid < 2 ^ 7) (hm : mid < 2 ^ 15) :
    decodeWire (insertAckNew rid res mid) = .ok (.ackNew rid res mid) := by
  obtain ⟨hf, hrid, hres, hmid⟩ := insertAckNew_reads res [] hr hm
  rw [List.append_nil] at hf hrid hres hmid
  rw [decodeWire, if_neg (by simp), if_pos (insertAckNew_length rid res mid), if_pos hf, hrid, hres, hmid]
  cases res <;> rfl

theorem decodeWire_insertAckLegacy {rid mid : Nat} (hr : rid < 2 ^ 15) (hm : mid < 2 ^ 8) :
    decodeWire (insertAckLegacy rid mid) = .ok (.ackLegacy rid mid) := by
  obtain ⟨hf, hrid, hmid⟩ := insertAckLegacy_reads [] hr hm
  rw [List.append_nil] at hf hrid hmid
  rw [decodeWire, if_neg (by simp), if_pos (insertAckLegacy_length rid mid), if_neg (by omega), hrid, hmid]

theorem decodeWire_other {b : List Byte} (h16 : b.length ≠ 16) (h3 : b.length ≠ 3) :
    decodeWire b = .error (.frameLength b) := by
  rw [decodeWire, if_neg h16, if_neg h3]

/-- A frame that decodes is its instruction's encoding: by its length and by its format flag. -/
theorem encode_of_decodeWire {b : List Byte} {i : Instr} (h : decodeWire b = .ok i) :
    i.wellFormed = true ∧ encode i = .wire b := by
  unfold decodeWire at h
  split_ifs at h with h16 hf h3 hf <;> cases h
  · exact ⟨extractBeacon_fitsNew hf, congrArg Signal.wire (insertBeacon_extractBeacon h16)⟩
  · exact ⟨extractBeacon_fitsLegacy hf, congrArg Signal.wire (insertBeacon_extractBeacon h16)⟩
  · have hrid : byteAt b 0 &&& 0x7F < 2 ^ 7 := by rw [and_0x7F]; omega
    have hb := (insertAckNew_of_reads h3.ge hf).trans (List.take_of_length_le h3.le)
    exact ⟨(ackNew_wellFormed_iff _ _ _).mpr ⟨hrid, wideMessageId_lt b⟩, congrArg Signal.wire hb⟩
  · have hb := (insertAckLegacy_of_reads h3.ge hf).trans (List.take_of_length_le h3.le)
    exact ⟨(ackLegacy_wellFormed_iff _ _).mpr ⟨wideRadioId_lt b, byteAt_lt b 2⟩, congrArg Signal.wire hb⟩

/-! ### Command words (R110, R111) -/

theorem commandNumber_le (c : Command) : commandNumber c ≤ 11 := by
  cases c <;> decide

/-- R111: the opcode map is the numbering of the commands. -/
theorem decodeOpcode_eq_some_iff (op : BitVec 8) (c : Command) :
    decodeOpcode op = some c ↔ op.toNat = commandNumber c := by
  constructor
  · intro h
    unfold decodeOpcode at h
    split at h
    case h_13 => cases h
    all_goals
      cases h
      assumption
  · intro h
    unfold decodeOpcode
    rw [h]
    cases c <;> rfl

/-- R110: a command word is the command's number, with zeros above it. -/
theorem decodeCommand_eq_some_iff (w : Word) (c : Command) :
    decodeCommand w = some c ↔ w.toNat = commandNumber c := by
  have hc := commandNumber_le c
  have hw := w.isLt
  have hhigh : w.extractLsb' 8 24 ≠ 0 ↔ 256 ≤ w.toNat := by
    rw [ne_eq, ← BitVec.toNat_inj, BitVec.extractLsb'_toNat, Nat.shiftRight_eq_div_pow]
    simp only [BitVec.ofNat_eq_ofNat, BitVec.toNat_ofNat]
    omega
  rw [decodeCommand]
  split_ifs with h
  · have := hhigh.mp h
    exact iff_of_false nofun (by omega)
  · have := mt hhigh.mpr h
    rw [decodeOpcode_eq_some_iff, BitVec.extractLsb'_toNat, Nat.shiftRight_zero, Nat.mod_eq_of_lt (by omega)]

theorem decodeCommand_eq_none {w : Word} (h : 11 < w.toNat) : decodeCommand w = none := by
  rw [Option.eq_none_iff_forall_ne_some]
  intro c hc
  have hw := (decodeCommand_eq_some_iff w c).mp hc
  have hle := commandNumber_le c
  omega

theorem encode_toInstr (c : Command) : encode c.toInstr = .command (BitVec.ofNat 32 (commandNumber c)) := by
  cases c <;> rfl

theorem toInstr_wellFormed (c : Command) : c.toInstr.wellFormed = true := by
  cases c <;> rfl

theorem decode_command_some {w : Word} {c : Command} (h : decodeCommand w = some c) :
    decode (.command w) = .ok c.toInstr := by
  rw [decode, h]

theorem decode_command_none {w : Word} (h : decodeCommand w = none) :
    decode (.command w) = .error (.illegalCommand w) := by
  rw [decode, h]

theorem decode_encode_toInstr (c : Command) : decode (encode c.toInstr) = .ok c.toInstr := by
  rw [encode_toInstr]
  apply decode_command_some
  have := commandNumber_le c
  rw [decodeCommand_eq_some_iff, BitVec.toNat_ofNat, Nat.mod_eq_of_lt (by omega)]

/-- A command word that decodes is its command's encoding. -/
theorem encode_of_decode_command {w : Word} {i : Instr} (h : decode (.command w) = .ok i) :
    i.wellFormed = true ∧ encode i = .command w := by
  cases hc : decodeCommand w with
  | none =>
    rw [decode_command_none hc] at h
    cases h
  | some c =>
    rw [decode_command_some hc] at h
    cases h
    refine ⟨toInstr_wellFormed c, ?_⟩
    rw [encode_toInstr, ← (decodeCommand_eq_some_iff w c).mp hc, BitVec.ofNat_toNat, BitVec.setWidth_eq]

/-! ### Address phases and strobe vectors (R113, R114) -/

/-- R113: `W` and `INDEX` of an address phase. -/
theorem decodeBus_busAddress (isWrite : Bool) (index : BitVec 6) (d : Word) :
    decodeBus (busAddress isWrite index) d = if isWrite then .wr index d else .rd index := by
  have hbit : (busAddress isWrite index).getLsbD 6 = isWrite := by
    rw [busAddress, BitVec.getLsbD_append]
    simp
  have hindex : (busAddress isWrite index).extractLsb' 0 6 = index := by
    rw [busAddress, BitVec.extractLsb'_append_eq_right]
  rw [decodeBus, hbit, hindex]

/-- Every address phase is one of a read or of a write. -/
theorem busAddress_eta (a : BitVec 7) : busAddress (a.getLsbD 6) (a.extractLsb' 0 6) = a := by
  revert a
  decide

theorem encode_of_decodeBus (a : BitVec 7) (d : Word) : (decodeBus a d).wellFormed = true ∧
    (encode (decodeBus a d) = .bus a d ∨ a.getLsbD 6 = false ∧ encode (decodeBus a d) = .bus a 0) := by
  have ha := busAddress_eta a
  cases hw : a.getLsbD 6 with
  | true =>
    rw [hw] at ha
    have hd : decodeBus a d = .wr (a.extractLsb' 0 6) d := by rw [decodeBus, if_pos hw]
    rw [hd, encode, ha]
    exact ⟨rfl, .inl rfl⟩
  | false =>
    rw [hw] at ha
    have hd : decodeBus a d = .rd (a.extractLsb' 0 6) := by rw [decodeBus, hw]; rfl
    rw [hd, encode, ha]
    exact ⟨rfl, .inr ⟨rfl, rfl⟩⟩

/-- Every strobe vector is the vector of its three bits. -/
theorem strobeVector_eta (v : BitVec 3) : strobeVector (v.getLsbD 2) (v.getLsbD 1) (v.getLsbD 0) = v := by
  revert v
  decide

/-- R114, R212: TICK first, then the standby edge, then the panic edge. -/
theorem encode_of_decodeStrobe {v : BitVec 3} {i : Instr} (h : decodeStrobe v = .ok i) :
    i.wellFormed = true ∧ encode i = .strobe v := by
  have hv := strobeVector_eta v
  unfold decodeStrobe at h
  split_ifs at h with h0 h1 h2 <;> cases h
  · rw [h0] at hv
    exact ⟨rfl, congrArg Signal.strobe hv⟩
  · rw [h1, Bool.eq_false_iff.mpr h0] at hv
    exact ⟨rfl, congrArg Signal.strobe hv⟩
  · rw [h2, Bool.eq_false_iff.mpr h1, Bool.eq_false_iff.mpr h0] at hv
    exact ⟨rfl, congrArg Signal.strobe hv⟩

/-! ### The round trips -/

/-- Settles O42. -/
theorem decodeEncode : Obligations.DecodeEncode := by
  intro i h
  cases i with
  | nop => exact decode_encode_toInstr .nop
  | encodeBeacon => exact decode_encode_toInstr .encodeBeacon
  | decodeBeacon => exact decode_encode_toInstr .decodeBeacon
  | encodeAck => exact decode_encode_toInstr .encodeAck
  | decodeAck => exact decode_encode_toInstr .decodeAck
  | repackLegacy => exact decode_encode_toInstr .repackLegacy
  | getRadioId => exact decode_encode_toInstr .getRadioId
  | getMessageId => exact decode_encode_toInstr .getMessageId
  | beginWait => exact decode_encode_toInstr .beginWait
  | ackReceived => exact decode_encode_toInstr .ackReceived
  | pollTimeout => exact decode_encode_toInstr .pollTimeout
  | abortWait => exact decode_encode_toInstr .abortWait
  | rd index => exact congrArg Except.ok (decodeBus_busAddress false index 0)
  | wr index data => exact congrArg Except.ok (decodeBus_busAddress true index data)
  | tick sb pn => cases sb <;> cases pn <;> rfl
  | edgeStandby pn => cases pn <;> rfl
  | edgePanic => rfl
  | reset => rfl
  | beaconLegacy f => exact decodeWire_insertBeacon_legacy h
  | beaconNew f => exact decodeWire_insertBeacon_new h
  | ackLegacy rid mid =>
    obtain ⟨hr, hm⟩ := (ackLegacy_wellFormed_iff rid mid).mp h
    exact decodeWire_insertAckLegacy hr hm
  | ackNew rid res mid =>
    obtain ⟨hr, hm⟩ := (ackNew_wellFormed_iff rid res mid).mp h
    exact decodeWire_insertAckNew res hr hm

/-- Settles O43, line by line of the block; only a read leaves its data word to the response. -/
theorem encodeDecode : Obligations.EncodeDecode := by
  intro sig i h
  cases sig with
  | command w => exact (encode_of_decode_command h).imp_right .inl
  | bus a d =>
    cases h
    exact (encode_of_decodeBus a d).imp_right fun he => he.imp_right fun hrd => ⟨a, d, rfl, hrd⟩
  | strobe v => exact (encode_of_decodeStrobe h).imp_right .inl
  | resetLine =>
    cases h
    exact ⟨rfl, .inl rfl⟩
  | wire b => exact (encode_of_decodeWire h).imp_right .inl

end Sys2Proof

namespace Sys2Proof.Machine

open Sys2Proof.Claims

/-! ### Table words -/

/-- A table word that stands for what an instruction's encoding drives decodes to that instruction. -/
theorem decodeTableWord_of_encode {nbits w : Nat} {i : Instr} (hs : signalOfTableWord nbits w = encode i)
    (hi : i.wellFormed = true) : decodeTableWord nbits w = some i := by
  rw [decodeTableWord_eq_some_iff, hs]
  exact decodeEncode i hi

/-- Settles O44: five words are the encodings of their instructions, and a reserved bit set makes a word no command. -/
theorem tableWordsDecode : Obligations.TableWordsDecode := by
  have hreserved : decode (signalOfTableWord 32 0x105) = .error (.illegalCommand 0x105) :=
    decode_command_none (decodeCommand_eq_none (by decide))
  refine ⟨decodeTableWord_of_encode rfl rfl, ?_, decodeTableWord_of_encode rfl rfl,
    decodeTableWord_of_encode rfl rfl, decodeTableWord_of_encode rfl rfl, decodeTableWord_of_encode rfl rfl⟩
  rw [decodeTableWord, hreserved]
  rfl

/-! ### Frame forms as arrivals (logs 4, 5) -/

/-- R103: the bits of the tail. -/
theorem beaconTail_bits {f : FieldSet} (h : f.tailFits = true) :
    beaconTail f = tailBytes (BitVec.ofNat 32 f.latitude) (BitVec.ofNat 32 f.longitude)
      (BitVec.ofNat 8 f.batteryPercent) (BitVec.ofNat 32 f.utcTimestamp) := by
  obtain ⟨hlat, hlon, -, hutc⟩ := (tailFits_iff f).mp h
  have hword : ∀ n, n < 2 ^ 32 → leBytes 4 n = leBytes 4 (BitVec.ofNat 32 n).toNat := fun n hn => by
    rw [BitVec.toNat_ofNat, Nat.mod_eq_of_lt hn]
  rw [beaconTail, hword _ hlat, hword _ hlon, hword _ hutc, leBytes_word, leBytes_word, leBytes_word]
  rfl

/-- Settles O40. -/
theorem legacyFormsArrive : Obligations.LegacyFormsArrive := by
  constructor
  · intro s f h
    obtain ⟨hflag, hr, -, -, htail⟩ := (fitsLegacy_iff f).mp h
    refine ⟨insertBeacon f, ?_, ?_, rfl⟩
    · rw [decodeBeacon_ok (insertBeacon_length f), extractBeacon_insertBeacon_legacy h]
    · rw [insertBeacon_legacy hflag, insertAckLegacy_bits _ _ hr, beaconTail_bits htail]
      rfl
  · intro s rid mid hr hm
    obtain ⟨hf, hrid, hmid⟩ := insertAckLegacy_reads [] hr hm
    rw [List.append_nil] at hf hrid hmid
    refine ⟨insertAckLegacy rid mid, ?_, insertAckLegacy_bits rid mid hr, rfl⟩
    rw [decodeAck_table (insertAckLegacy_length rid mid), tableDecodeAck, if_neg (by omega), hrid, hmid]

/-- Settles O41. -/
theorem newFormsArrive : Obligations.NewFormsArrive := by
  constructor
  · intro s f h
    obtain ⟨-, hr, -, hm, htail⟩ := (fitsNew_iff f).mp h
    refine ⟨insertBeacon f, ?_, ?_, rfl⟩
    · rw [decodeBeacon_ok (insertBeacon_length f), extractBeacon_insertBeacon_new h]
    · rw [insertBeacon_new h, insertAckNew_bits _ _ _ hr hm, beaconTail_bits htail]
      rfl
  · intro s rid mid res hr hm
    obtain ⟨hf, hrid, -, hmid⟩ := insertAckNew_reads res [] hr hm
    rw [List.append_nil] at hf hrid hmid
    refine ⟨insertAckNew rid res mid, ?_, insertAckNew_bits rid mid res hr hm, rfl⟩
    rw [decodeAck_table (insertAckNew_length rid res mid), tableDecodeAck, if_pos hf, hrid, hmid]

/-! ### A step with no instruction -/

/-- Settles O46: the decoder's three errors, and the empty schedule. -/
theorem stepWithoutInstruction : Obligations.StepWithoutInstruction := by
  intro s inp rest t
  refine ⟨fun w hw hs => ?_, fun b h16 h3 hs => ?_, fun hs => ?_, step_of_schedule_nil⟩
  · exact step_of_decode_error hs (decode_command_none (decodeCommand_eq_none hw))
  · exact step_of_decode_error hs (decodeWire_other h16 h3)
  · exact step_of_decode_error (e := .emptyStrobe) hs rfl

end Sys2Proof.Machine
end

section
/-! SUPPORT. Proofs of the statements cited from 40_codec.md: the bits a decoded frame holds and the round trips of the
codec (R144 to R152, R155), and the four codec commands (R160 to R163) under every ack layout (I1). -/

namespace Sys2Proof

open Sys2Proof.Claims Sys2Proof.Machine

/-! ### Parts of a byte as numbers (R8, R105) -/

theorem toNat_and_0x7F (x : Byte) : x.toNat &&& 0x7F = (x.extractLsb' 0 7).toNat := by
  rw [and_0x7F, BitVec.extractLsb'_toNat, Nat.shiftRight_zero]

theorem toNat_shiftRight_seven (x : Byte) : x.toNat >>> 7 = (x.extractLsb' 7 1).toNat := by
  have := x.isLt
  rw [BitVec.extractLsb'_toNat, Nat.shiftRight_eq_div_pow]
  omega

theorem toNat_shiftRight_seven_eq_one_iff (x : Byte) : x.toNat >>> 7 = 1 ↔ x.getLsbD 7 = true := by
  have := x.isLt
  rw [BitVec.getLsbD, Nat.testBit_eq_decide_div_mod_eq, decide_eq_true_iff, Nat.shiftRight_eq_div_pow]
  omega

/-- A flag register that holds a bit is its bit 0. -/
theorem decide_toNat_eq_one {w : Word} (h : w.toNat ≤ 1) : decide (w.toNat = 1) = w.getLsbD 0 := by
  rw [BitVec.getLsbD, Nat.testBit_eq_decide_div_mod_eq, decide_eq_decide]
  omega

/-! ### The fields of a frame that stands in a buffer, bit by bit (R101 to R105) -/

theorem toList_eq_bufferBytes (b : Buffer) : b.toList = bufferBytes b 16 :=
  (List.take_of_length_le b.length_toList.le).symm

theorem padded_toList (b : Buffer) : padded b.toList = b := by
  ext k hk
  simp [padded]

section bufferBytes
variable (b : Buffer) {n : Nat}

theorem byteAt_bufferBytes_getElem {k : Nat} (hk : k < n) (hn : n ≤ 16) :
    byteAt (bufferBytes b n) k = b[k].toNat := by
  rw [byteAt_bufferBytes b n k hk hn, bufferByte_eq]

/-- R100: the format flag is bit 7 of byte 0. -/
theorem formatBit_bufferBytes_eq_one_iff (h : 0 < n) (hn : n ≤ 16) :
    formatBit (bufferBytes b n) = 1 ↔ b[0].getLsbD 7 = true := by
  rw [formatBit, byteAt_bufferBytes_getElem b h hn, toNat_shiftRight_seven_eq_one_iff]

theorem formatBit_bufferBytes_ne_one_iff (h : 0 < n) (hn : n ≤ 16) :
    formatBit (bufferBytes b n) ≠ 1 ↔ b[0].getLsbD 7 = false := by
  rw [ne_eq, formatBit_bufferBytes_eq_one_iff b h hn, Bool.not_eq_true]

theorem wideRadioId_bufferBytes (h : 1 < n) (hn : n ≤ 16) :
    wideRadioId (bufferBytes b n) = (b[0].extractLsb' 0 7 ++ b[1]).toNat := by
  rw [wideRadioId, byteAt_bufferBytes_getElem b (by omega) hn, byteAt_bufferBytes_getElem b h hn, toNat_and_0x7F,
    BitVec.toNat_append]

theorem wideMessageId_bufferBytes (h : 2 < n) (hn : n ≤ 16) :
    wideMessageId (bufferBytes b n) = (b[1].extractLsb' 0 7 ++ b[2]).toNat := by
  rw [wideMessageId, byteAt_bufferBytes_getElem b (by omega) hn, byteAt_bufferBytes_getElem b h hn, toNat_and_0x7F,
    BitVec.toNat_append]

/-- R72: the four bytes of a field are its word. -/
theorem memRead_bufferBytes {o : Nat} (h : o + 3 < 16) :
    memRead (bufferBytes b 16) o 4 = (wordAt b o h).toNat := by
  have h0 := b[o].isLt
  have h1 := b[o + 1].isLt
  have h2 := b[o + 2].isLt
  rw [memRead_four, byteAt_bufferBytes_getElem b (by omega) le_rfl, byteAt_bufferBytes_getElem b (by omega) le_rfl,
    byteAt_bufferBytes_getElem b (by omega) le_rfl, byteAt_bufferBytes_getElem b h le_rfl, wordAt]
  simp only [BitVec.toNat_append]
  rw [shiftLeft_or_byte _ _ h2, shiftLeft_or_byte _ _ h1, shiftLeft_or_byte _ _ h0]
  ring

/-- R102: the fields of a new-format frame. -/
theorem extractBeacon_bufferBytes_new (h : b[0].getLsbD 7 = true) : extractBeacon (bufferBytes b 16) =
    ⟨1, (b[0].extractLsb' 0 7).toNat, (b[1].extractLsb' 7 1).toNat, (b[1].extractLsb' 0 7 ++ b[2]).toNat,
      (wordAt b 3 (by decide)).toNat, (wordAt b 7 (by decide)).toNat, b[11].toNat,
      (wordAt b 12 (by decide)).toNat⟩ := by
  have hf := (formatBit_bufferBytes_eq_one_iff b (n := 16) (by decide) le_rfl).mpr h
  rw [extractBeacon_new hf, wideMessageId_bufferBytes b (by decide) le_rfl, memRead_bufferBytes, memRead_bufferBytes,
    memRead_bufferBytes, byteAt_bufferBytes_getElem b (by decide) le_rfl,
    byteAt_bufferBytes_getElem b (by decide) le_rfl, byteAt_bufferBytes_getElem b (by decide) le_rfl,
    toNat_and_0x7F, toNat_shiftRight_seven]

/-- R101: the fields of a legacy frame. -/
theorem extractBeacon_bufferBytes_legacy (h : b[0].getLsbD 7 = false) : extractBeacon (bufferBytes b 16) =
    ⟨0, (b[0].extractLsb' 0 7 ++ b[1]).toNat, 0, b[2].toNat,
      (wordAt b 3 (by decide)).toNat, (wordAt b 7 (by decide)).toNat, b[11].toNat,
      (wordAt b 12 (by decide)).toNat⟩ := by
  have hf := (formatBit_bufferBytes_ne_one_iff b (n := 16) (by decide) le_rfl).mpr h
  rw [extractBeacon_legacy hf, wideRadioId_bufferBytes b (by decide) le_rfl, memRead_bufferBytes, memRead_bufferBytes,
    memRead_bufferBytes, byteAt_bufferBytes_getElem b (by decide) le_rfl,
    byteAt_bufferBytes_getElem b (by decide) le_rfl]

end bufferBytes

/-! ### The bytes of a field set, bit by bit (R101 to R103) -/

theorem insertBeacon_new_bits {f : FieldSet} (h : f.fitsNew = true) : insertBeacon f =
    newHeader (BitVec.ofNat 7 f.radioId) (decide (f.panic = 1)) (BitVec.ofNat 15 f.messageId) ++
      tailBytes (BitVec.ofNat 32 f.latitude) (BitVec.ofNat 32 f.longitude) (BitVec.ofNat 8 f.batteryPercent)
        (BitVec.ofNat 32 f.utcTimestamp) := by
  obtain ⟨-, hr, -, hm, htail⟩ := (fitsNew_iff f).mp h
  rw [insertBeacon_new h, insertAckNew_bits _ _ _ hr hm, beaconTail_bits htail]
  rfl

theorem insertBeacon_legacy_bits {f : FieldSet} (h : f.fitsLegacy = true) : insertBeacon f =
    legacyHeader (BitVec.ofNat 15 f.radioId) (BitVec.ofNat 8 f.messageId) ++
      tailBytes (BitVec.ofNat 32 f.latitude) (BitVec.ofNat 32 f.longitude) (BitVec.ofNat 8 f.batteryPercent)
        (BitVec.ofNat 32 f.utcTimestamp) := by
  obtain ⟨hf, hr, -, -, htail⟩ := (fitsLegacy_iff f).mp h
  rw [insertBeacon_legacy hf, insertAckLegacy_bits _ _ hr, beaconTail_bits htail]
  rfl

end Sys2Proof

namespace Sys2Proof.Machine

open Sys2Proof.Claims

/-! ### Laws of the beacon codec (R144 to R155) -/

/-- R151, R152: decoding undoes encoding, in the layout the format flag selects. -/
theorem decodeBeacon_encodeBeacon {fs : FieldSet} (h : inRange fs = true) :
    ∃ b, encodeBeacon fs = .ok b ∧ decodeBeacon b = .ok fs := by
  refine ⟨insertBeacon fs, encodeBeacon_ok h, ?_⟩
  rw [decodeBeacon_ok (insertBeacon_length fs)]
  rcases inRange_fits h with ⟨-, hnew⟩ | ⟨-, hleg⟩
  · rw [extractBeacon_insertBeacon_new hnew]
  · rw [extractBeacon_insertBeacon_legacy hleg]

theorem extractBeacon_batteryPercent (b : List Byte) : (extractBeacon b).batteryPercent = byteAt b 11 := by
  unfold extractBeacon
  split_ifs <;> rfl

/-- R155: a decoded field set fits its layout, so only its battery can be out of range. -/
theorem inRange_extractBeacon_iff (b : List Byte) : inRange (extractBeacon b) = true ↔ byteAt b 11 ≤ 100 := by
  obtain ⟨hlat, hlon, -, hutc⟩ := (tailFits_iff _).mp (extractBeacon_tailFits b)
  rw [inRange_iff, ← extractBeacon_batteryPercent b]
  by_cases hf : formatBit b = 1
  · obtain ⟨hflag, hr, hp, hm, -⟩ := (fitsNew_iff _).mp (extractBeacon_fitsNew hf)
    omega
  · obtain ⟨hflag, hr, hp, hm, -⟩ := (fitsLegacy_iff _).mp (extractBeacon_fitsLegacy hf)
    omega

/-- Settles O8. -/
theorem newFormatRoundTrip : Obligations.NewFormatRoundTrip := fun _ _ h => decodeBeacon_encodeBeacon h

/-- Settles O9: what R105 extracts from a legacy frame fits the layout, and R106 inserts the same bytes again. -/
theorem legacyRoundTrip : Obligations.LegacyRoundTrip := by
  constructor
  · intro fs hf h
    have hrange := (inRange_iff fs).mp h
    have hp : fs.panic = 0 := by omega
    exact ⟨hp, decodeBeacon_encodeBeacon h⟩
  · intro b hb
    have hfit : (extractBeacon b.toList).fitsLegacy = true := by
      rw [toList_eq_bufferBytes]
      exact extractBeacon_fitsLegacy ((formatBit_bufferBytes_ne_one_iff b (by decide) le_rfl).mpr hb)
    obtain ⟨-, -, hp, -, -⟩ := (fitsLegacy_iff _).mp hfit
    refine ⟨extractBeacon b.toList, decodeBeacon_ok b.length_toList, hfit, hp, ?_⟩
    rw [← insertBeacon_legacy_bits hfit, insertBeacon_extractBeacon b.length_toList, padded_toList]

/-- Settles O10. -/
theorem frameRoundTrip : Obligations.FrameRoundTrip := by
  intro b hl
  have hrange := inRange_extractBeacon_iff b
  refine ⟨extractBeacon b, decodeBeacon_ok hl, fun hle => ?_, fun hgt => ?_⟩
  · rw [encodeBeacon_ok (hrange.mpr hle), insertBeacon_extractBeacon hl]
  · exact encodeBeacon_error (Bool.eq_false_iff.mpr (hrange.not.mpr (Nat.not_le.mpr hgt)))

/-- Settles O12: the fields of the layout that bit 7 of byte 0 selects. -/
theorem formatBitSelectsLayout : Obligations.FormatBitSelectsLayout := by
  intro b fs h
  rw [decodeBeacon_ok b.length_toList, toList_eq_bufferBytes] at h
  cases h
  constructor
  · intro hnew
    rw [extractBeacon_bufferBytes_new b hnew]
    exact ⟨rfl, rfl, rfl, rfl⟩
  · intro hleg
    rw [extractBeacon_bufferBytes_legacy b hleg]
    exact ⟨rfl, rfl, rfl, rfl⟩

/-! ### The size guards (R148) -/

theorem encodeBeacon_ne_invalidSize (fs : FieldSet) : encodeBeacon fs ≠ .error .invalidSize := by
  unfold encodeBeacon
  split_ifs <;> nofun

theorem repackLegacy_ne_invalidSize {b : List Byte} (h : b.length = 16) :
    repackLegacy b ≠ .error .invalidSize := by
  unfold repackLegacy
  rw [if_neg (not_not.mpr h)]
  dsimp only
  split_ifs
  · nofun
  · nofun
  · nofun
  · exact encodeBeacon_ne_invalidSize _

/-- Settles O11. -/
theorem sizeGuardsAreExact : Obligations.SizeGuardsAreExact := by
  refine fun b => ⟨⟨fun h hl => ?_, decodeBeacon_error⟩, ⟨fun h hl => ?_, fun hl => ?_⟩, fun l =>
    ⟨fun h hl => ?_, fun hl => ?_⟩⟩
  · rw [decodeBeacon_ok hl] at h
    cases h
  · exact repackLegacy_ne_invalidSize hl h
  · rw [repackLegacy, if_pos hl]
  · obtain ⟨r, hr, -⟩ := decodeAck_total l hl
    rw [hr] at h
    cases h
  · rw [decodeAck, if_pos hl]

/-! ### Ack frames under every layout (R149, R150, I1) -/

/-- A pair that a beacon of some layout can carry (R149). -/
def FitsBeacon (rid mid : Nat) : Prop := (rid < 2 ^ 7 ∧ mid < 2 ^ 15) ∨ (rid < 2 ^ 15 ∧ mid < 2 ^ 8)

theorem tableEncodeAck_new {rid mid : Nat} (hr : rid < 2 ^ 7) (hm : mid < 2 ^ 15) :
    tableEncodeAck rid mid = some (insertAckNew rid false mid) := by
  rw [tableEncodeAck, if_pos ⟨hr, hm⟩]

theorem tableEncodeAck_legacy {rid mid : Nat} (h : 2 ^ 7 ≤ rid) (hr : rid < 2 ^ 15) (hm : mid < 2 ^ 8) :
    tableEncodeAck rid mid = some (insertAckLegacy rid mid) := by
  rw [tableEncodeAck, if_neg (by omega), if_pos ⟨hr, hm⟩]

theorem tableEncodeAck_none {rid mid : Nat} (h : ¬FitsBeacon rid mid) : tableEncodeAck rid mid = none := by
  obtain ⟨hnew, hleg⟩ := not_or.mp h
  rw [tableEncodeAck, if_neg hnew, if_neg hleg]

/-- The table of R104 accepts the pairs of beacons, and by `tableEncodeAck_none` no other. -/
theorem tableEncodeAck_isSome {rid mid : Nat} (h : FitsBeacon rid mid) : (tableEncodeAck rid mid).isSome := by
  unfold tableEncodeAck
  split_ifs with hnew hleg
  · rfl
  · rfl
  · exact absurd h (not_or.mpr ⟨hnew, hleg⟩)

theorem tableDecodeAck_tableEncodeAck {rid mid : Nat} {b : List Byte} (h : tableEncodeAck rid mid = some b) :
    tableDecodeAck b = (rid, mid) := by
  unfold tableEncodeAck at h
  split_ifs at h with hnew hleg <;> cases h
  · obtain ⟨hf, hrid, -, hmid⟩ := insertAckNew_reads false [] hnew.1 hnew.2
    rw [List.append_nil] at hf hrid hmid
    rw [tableDecodeAck, if_pos hf, hrid, hmid]
  · obtain ⟨hf, hrid, hmid⟩ := insertAckLegacy_reads [] hleg.1 hleg.2
    rw [List.append_nil] at hf hrid hmid
    rw [tableDecodeAck, if_neg (by omega), hrid, hmid]

/-- The ways `encodeAck` gives bytes: by the table of R104, or by the replacement the layout names. -/
theorem encodeAck_ok_iff {l : AckLayout} {rid mid : Nat} {b : List Byte} : encodeAck l rid mid = .ok b ↔
    (replacementCodec l = none ∧ tableEncodeAck rid mid = some b) ∨
      (∃ c r, replacementCodec l = some c ∧ c.encode rid mid = some r ∧ ackList r = b) := by
  unfold encodeAck
  cases replacementCodec l with
  | none => cases tableEncodeAck rid mid <;> simp
  | some c => cases hc : c.encode rid mid <;> simp [hc]

theorem encodeAck_headerForm_ok {rid mid : Nat} {b : List Byte} (h : tableEncodeAck rid mid = some b) :
    encodeAck .headerForm rid mid = .ok b := encodeAck_ok_iff.mpr (.inl ⟨rfl, h⟩)

theorem encodeAck_headerForm_error {rid mid : Nat} (h : tableEncodeAck rid mid = none) :
    encodeAck .headerForm rid mid = .error .fieldRange := by
  rw [encodeAck_table, h]

/-- Every layout accepts the pairs of beacons (I1). -/
theorem encodeAck_accepts (l : AckLayout) {rid mid : Nat} (h : FitsBeacon rid mid) :
    ∃ b, encodeAck l rid mid = .ok b := by
  cases hl : replacementCodec l with
  | none =>
    obtain ⟨b, hb⟩ := Option.isSome_iff_exists.mp (tableEncodeAck_isSome h)
    exact ⟨b, encodeAck_ok_iff.mpr (.inl ⟨hl, hb⟩)⟩
  | some c =>
    have hsome : (c.encode rid mid).isSome :=
      h.elim (fun hn => c.accepts_new_pairs rid mid hn.1 hn.2) fun ho => c.accepts_legacy_pairs rid mid ho.1 ho.2
    obtain ⟨r, hr⟩ := Option.isSome_iff_exists.mp hsome
    exact ⟨ackList r, encodeAck_ok_iff.mpr (.inr ⟨c, r, hl, hr, rfl⟩)⟩

/-- Settles O14: the default table and every replacement undo their own encoding. -/
theorem ackRoundTrip : Obligations.AckRoundTrip := by
  intro l rid mid b h
  have hlen := encodeAck_length h
  refine ⟨hlen, ?_⟩
  rw [decodeAck, if_neg (not_not.mpr hlen)]
  rcases encodeAck_ok_iff.mp h with ⟨hl, hb⟩ | ⟨c, r, hl, hr, rfl⟩
  · rw [hl, ← tableDecodeAck_tableEncodeAck hb]
  · obtain ⟨hrid, hmid⟩ := c.decode_encode rid mid r hr
    rw [hl, ← hrid, ← hmid]
    rfl

/-! ### Buffers a command stores into (R160, R162) -/

theorem overlay_eq_padded (old : Buffer) {b : List Byte} (h : b.length = 16) : overlay old b = padded b := by
  ext k hk
  simp [padded, List.getD_eq_getElem?_getD, h, hk]

theorem overlay_eq_headReplaced (old : Buffer) {b : List Byte} (h : b.length = 3) :
    overlay old b = headReplaced old b := by
  ext k hk
  by_cases h3 : k < 3 <;> simp [headReplaced, List.getD_eq_getElem?_getD, h, h3]

/-- What stands at the front of a buffer after a store is what was stored. -/
theorem bufferBytes_overlay (old : Buffer) {b : List Byte} (h : b.length ≤ 16) :
    bufferBytes (overlay old b) b.length = b := by
  apply List.ext_getElem (bufferBytes_length _ _ h)
  intro k hk hkb
  simp [bufferBytes, hkb]

/-! ### The codec commands (R160 to R163), by what the pure functions answer -/

section commands
variable {s : State}

theorem exec_encodeBeacon_ok {r : List Byte} (h : encodeBeacon (operandFields s.host) = .ok r) :
    exec .encodeBeacon s = .next { s with host := { s.host with
      frame := overlay s.host.frame r, frameLen := BitVec.ofNat 32 r.length, err := .ok } } := by
  rw [exec, execEncodeBeacon, h]
  rfl

theorem exec_encodeBeacon_error {e : ErrorCode} (h : encodeBeacon (operandFields s.host) = .error e) :
    exec .encodeBeacon s = .next (raised e s) := by
  rw [exec, execEncodeBeacon, h]
  rfl

theorem exec_decodeBeacon_ok (h : s.host.frameLen = 16) : exec .decodeBeacon s =
    .next (complete (s.withHost (writeFields s.host (extractBeacon (bufferBytes s.host.frame 16))))) := by
  rw [exec, execDecodeBeacon, if_neg (not_not.mpr h), frameBytes, decodeBeacon_ok (bufferBytes_length _ _ le_rfl)]

theorem exec_decodeBeacon_error (h : s.host.frameLen ≠ 16) :
    exec .decodeBeacon s = .next (raised .invalidSize s) := by
  rw [exec, execDecodeBeacon, if_pos h]
  rfl

theorem exec_encodeAck_ok {r : List Byte}
    (h : encodeAck s.cfg.params.ackLayout s.host.fRadioId.toNat s.host.fMessageId.toNat = .ok r) :
    exec .encodeAck s = .next { s with host := { s.host with
      frame := headReplaced s.host.frame r, frameLen := 3, err := .ok } } := by
  have hlen : (3 : Word) = BitVec.ofNat 32 r.length := by rw [encodeAck_length h]; rfl
  rw [← overlay_eq_headReplaced _ (encodeAck_length h), hlen, exec, execEncodeAck, h]
  rfl

theorem exec_encodeAck_error {e : ErrorCode}
    (h : encodeAck s.cfg.params.ackLayout s.host.fRadioId.toNat s.host.fMessageId.toNat = .error e) :
    exec .encodeAck s = .next (raised e s) := by
  rw [exec, execEncodeAck, h]
  rfl

theorem exec_decodeAck_ok {rid mid : Nat} (hlen : s.host.frameLen = 3)
    (h : decodeAck s.cfg.params.ackLayout (bufferBytes s.host.frame 3) = .ok (rid, mid)) :
    exec .decodeAck s = .next { s with host := { s.host with
      fRadioId := BitVec.ofNat 32 rid, fMessageId := BitVec.ofNat 32 mid, err := .ok } } := by
  rw [exec, execDecodeAck, if_neg (not_not.mpr hlen), frameBytes, h]
  rfl

theorem exec_decodeAck_error (h : s.host.frameLen ≠ 3) :
    exec .decodeAck s = .next (raised .invalidSize s) := by
  rw [exec, execDecodeAck, if_pos h]
  rfl

end commands

/-! ### ENCODE_BEACON and DECODE_BEACON (R160, R161) -/

/-- R141 for the field registers: the 32-bit fields fit by their width. -/
theorem inRange_operandFields_iff (h : HostPort) :
    inRange (operandFields h) = true ↔ NewInRange h ∨ LegacyInRange h := by
  have hlat := h.fLatitude.isLt
  have hlon := h.fLongitude.isLt
  have hutc := h.fUtc.isLt
  have hf0 : h.fFormat = 0 ↔ h.fFormat.toNat = 0 := BitVec.toNat_inj.symm
  have hf1 : h.fFormat = 1 ↔ h.fFormat.toNat = 1 := BitVec.toNat_inj.symm
  have hp0 : h.fPanic = 0 ↔ h.fPanic.toNat = 0 := BitVec.toNat_inj.symm
  rw [inRange_iff, NewInRange, LegacyInRange, hf0, hf1, hp0]
  simp only [operandFields]
  omega

theorem operandFields_fitsNew {h : HostPort} (hn : NewInRange h) : (operandFields h).fitsNew = true := by
  rcases inRange_fits ((inRange_operandFields_iff h).mpr (.inl hn)) with ⟨-, hfit⟩ | ⟨hflag, -⟩
  · exact hfit
  · rw [operandFields, hn.1] at hflag
    cases hflag

theorem operandFields_fitsLegacy {h : HostPort} (hl : LegacyInRange h) : (operandFields h).fitsLegacy = true := by
  rcases inRange_fits ((inRange_operandFields_iff h).mpr (.inr hl)) with ⟨hflag, -⟩ | ⟨-, hfit⟩
  · rw [operandFields, hl.1] at hflag
    cases hflag
  · exact hfit

/-- R160: field registers in range are stored as the sixteen bytes of their layout. -/
theorem exec_encodeBeacon_inRange {s : State} (h : NewInRange s.host ∨ LegacyInRange s.host) :
    exec .encodeBeacon s = .next { s with host := { s.host with
      frame := padded (insertBeacon (operandFields s.host)), frameLen := 16, err := .ok } } := by
  have hlen := insertBeacon_length (operandFields s.host)
  rw [exec_encodeBeacon_ok (encodeBeacon_ok ((inRange_operandFields_iff s.host).mpr h)),
    overlay_eq_padded _ hlen, hlen]
  rfl

/-- Settles O1. -/
theorem encodeBeaconPacksFields : Obligations.EncodeBeaconPacksFields := by
  refine fun s => ⟨fun hn => ?_, fun hl => ?_, fun hn hl => ?_⟩
  · rw [exec_encodeBeacon_inRange (.inl hn), insertBeacon_new_bits (operandFields_fitsNew hn)]
    obtain ⟨-, -, hp, -, -⟩ := hn
    have hbit : decide ((operandFields s.host).panic = 1) = s.host.fPanic.getLsbD 0 := decide_toNat_eq_one hp
    rw [hbit]
    simp only [operandFields, BitVec.ofNat_toNat, BitVec.setWidth_eq]
  · rw [exec_encodeBeacon_inRange (.inr hl), insertBeacon_legacy_bits (operandFields_fitsLegacy hl)]
    simp only [operandFields, BitVec.ofNat_toNat, BitVec.setWidth_eq]
  · apply exec_encodeBeacon_error
    apply encodeBeacon_error
    rw [Bool.eq_false_iff, ne_eq, inRange_operandFields_iff]
    exact not_or.mpr ⟨hn, hl⟩

/-- Settles O2. -/
theorem decodeBeaconUnpacksFrame : Obligations.DecodeBeaconUnpacksFrame := by
  refine fun s => ⟨fun hlen hnew => ?_, fun hlen hleg => ?_, exec_decodeBeacon_error⟩
  · rw [exec_decodeBeacon_ok hlen, extractBeacon_bufferBytes_new _ hnew]
    simp only [writeFields, BitVec.ofNat_toNat, BitVec.setWidth_eq]
    rfl
  · rw [exec_decodeBeacon_ok hlen, extractBeacon_bufferBytes_legacy _ hleg]
    simp only [writeFields, BitVec.ofNat_toNat, BitVec.setWidth_eq]
    rfl

/-! ### ENCODE_ACK and DECODE_ACK (R162, R163) -/

/-- Settles O3: the three cases of the table of R104. -/
theorem encodeAckPacksPair : Obligations.EncodeAckPacksPair := by
  refine fun s hdef => ⟨fun hr hm => ?_, fun h128 hr hm => ?_, fun hn hl => ?_⟩
  · have henc := encodeAck_headerForm_ok (tableEncodeAck_new hr hm)
    rw [insertAckNew_bits _ _ _ hr hm, BitVec.ofNat_toNat, BitVec.ofNat_toNat] at henc
    exact exec_encodeAck_ok (hdef ▸ henc)
  · have henc := encodeAck_headerForm_ok (tableEncodeAck_legacy h128 hr hm)
    rw [insertAckLegacy_bits _ _ hr, BitVec.ofNat_toNat, BitVec.ofNat_toNat] at henc
    exact exec_encodeAck_ok (hdef ▸ henc)
  · have henc := encodeAck_headerForm_error (tableEncodeAck_none (not_or.mpr ⟨hn, hl⟩))
    exact exec_encodeAck_error (hdef ▸ henc)

/-- R104: the pair in the first three bytes of a buffer, new form; the reserved bit is not read. -/
theorem tableDecodeAck_bufferBytes_new {b : Buffer} (h : b[0].getLsbD 7 = true) : tableDecodeAck (bufferBytes b 3) =
    ((b[0].extractLsb' 0 7).toNat, (b[1].extractLsb' 0 7 ++ b[2]).toNat) := by
  rw [tableDecodeAck, if_pos ((formatBit_bufferBytes_eq_one_iff b (by decide) (by decide)).mpr h),
    wideMessageId_bufferBytes b (by decide) (by decide), byteAt_bufferBytes_getElem b (by decide) (by decide),
    toNat_and_0x7F]

/-- R104: the pair in the first three bytes of a buffer, legacy form. -/
theorem tableDecodeAck_bufferBytes_legacy {b : Buffer} (h : b[0].getLsbD 7 = false) :
    tableDecodeAck (bufferBytes b 3) = ((b[0].extractLsb' 0 7 ++ b[1]).toNat, b[2].toNat) := by
  rw [tableDecodeAck, if_neg ((formatBit_bufferBytes_ne_one_iff b (by decide) (by decide)).mpr h),
    wideRadioId_bufferBytes b (by decide) (by decide), byteAt_bufferBytes_getElem b (by decide) (by decide)]

/-- Settles O4. -/
theorem decodeAckUnpacksPair : Obligations.DecodeAckUnpacksPair := by
  intro s hdef
  have hdec : decodeAck s.cfg.params.ackLayout (bufferBytes s.host.frame 3) =
      .ok (tableDecodeAck (bufferBytes s.host.frame 3)) := by
    rw [hdef, decodeAck_table (bufferBytes_length _ _ (by decide))]
  refine ⟨fun hlen hnew => ?_, fun hlen hleg => ?_, exec_decodeAck_error⟩
  · rw [tableDecodeAck_bufferBytes_new hnew] at hdec
    rw [exec_decodeAck_ok hlen hdec, BitVec.ofNat_toNat, BitVec.ofNat_toNat]
  · rw [tableDecodeAck_bufferBytes_legacy hleg] at hdec
    rw [exec_decodeAck_ok hlen hdec, BitVec.ofNat_toNat, BitVec.ofNat_toNat]

/-- Settles O5: the layout accepts the pair, and its decoding writes the ids that already stand in the registers. -/
theorem ackLayoutIsReplaceable : Obligations.AckLayoutIsReplaceable := by
  intro s hpair
  obtain ⟨b, hb⟩ := encodeAck_accepts s.cfg.params.ackLayout hpair
  obtain ⟨hlen, hdec⟩ := ackRoundTrip _ _ _ _ hb
  refine ⟨b, hlen, exec_encodeAck_ok hb, ?_⟩
  have hbytes : bufferBytes (headReplaced s.host.frame b) 3 = b := by
    rw [← overlay_eq_headReplaced _ hlen, ← hlen, bufferBytes_overlay _ (by omega)]
  rw [exec_decodeAck_ok rfl (hbytes.symm ▸ hdec), BitVec.ofNat_toNat, BitVec.ofNat_toNat, BitVec.setWidth_eq,
    BitVec.setWidth_eq]

end Sys2Proof.Machine
end

section
/-! SUPPORT. Proofs of the statements cited from 41_sequencer.md: runs of any length (R201, R203), the edge strobes
(R210 to R212), and the TICK by what it starts from: STANDBY, a standby toggle, and each state step (R181 to R204). -/

namespace Sys2Proof.Machine

open Sys2Proof.Claims

/-! ### Runs -/

theorem core_run_succ_of_step {s t : State} (h : step s = .next t) (k : Nat) :
    Sys2Proof.core.run (k + 1) s = Sys2Proof.core.run k t := by
  have hstep : Sys2Proof.core.step s = .next t := h
  simp only [Host.Core.run, hstep]

/-- Settles O59, by induction on the number of steps. -/
theorem runsStaySafe : Obligations.RunsStaySafe := by
  intro k
  induction k with
  | zero => exact fun s h => ⟨s, rfl, h, rfl⟩
  | succ k ih =>
    intro s h
    obtain ⟨t, hstep, hsafe⟩ := step_safe h
    obtain ⟨u, hrun, husafe, hcfg⟩ := ih t hsafe
    exact ⟨u, (core_run_succ_of_step hstep k).trans hrun, husafe, hcfg.trans (step_keepsCfg s t hstep)⟩

/-! ### Edges (R210 to R212) -/

section edges
variable (s : State)

@[simp] theorem latchStandbyEdge_true :
    latchStandbyEdge true s = { s with pss := { s.pss with reqStandby := true } } := by
  rw [latchStandbyEdge, Bool.or_true]
  rfl

@[simp] theorem latchPanicEdge_true :
    latchPanicEdge true s = { s with pss := { s.pss with reqPanic := true } } := by
  rw [latchPanicEdge, Bool.or_true]
  rfl

@[simp] theorem latchStandbyEdge_false : latchStandbyEdge false s = s := by
  rw [latchStandbyEdge, Bool.or_false]
  rfl

@[simp] theorem latchPanicEdge_false : latchPanicEdge false s = s := by
  rw [latchPanicEdge, Bool.or_false]
  rfl

theorem exec_edgeStandby (pn : Bool) :
    exec (.edgeStandby pn) s = .next (latchPanicEdge pn (latchStandbyEdge true s)) := rfl

theorem exec_edgePanic : exec .edgePanic s = .next (latchPanicEdge true s) := rfl

theorem exec_tick (sb pn : Bool) :
    exec (.tick sb pn) s = .next (tick (latchPanicEdge pn (latchStandbyEdge sb s))) := rfl

end edges

/-- Settles O26. -/
theorem edgesSetFlags : Obligations.EdgesSetFlags := by
  refine fun s => ⟨fun pn => ?_, ?_⟩
  · rw [exec_edgeStandby, latchStandbyEdge_true]
    rfl
  · rw [exec_edgePanic, latchPanicEdge_true]

/-- Settles O27: a flag that is set stays set, and the two flags are latched independently. -/
theorem edgesCoalesce : Obligations.EdgesCoalesce := by
  refine fun s => ⟨fun t h => ?_, fun t h => ?_, fun t h pn => ?_, fun t h sb => ?_⟩
  · rw [exec_edgeStandby, latchPanicEdge_false] at h ⊢
    cases h
    rw [latchStandbyEdge_true, latchStandbyEdge_true]
  · rw [exec_edgePanic] at h ⊢
    cases h
    rw [latchPanicEdge_true, latchPanicEdge_true]
  · rw [exec_edgeStandby, latchPanicEdge_false] at h
    cases h
    rw [exec_tick, exec_tick, latchStandbyEdge_false]
  · rw [exec_edgePanic] at h
    cases h
    rw [exec_tick, exec_tick, latchPanicEdge_false]
    rfl

/-! ### The receive phase (R187 to R190) -/

theorem overlay_zero (b : List Byte) : overlay Buffer.zero b = padded b := by
  ext k hk
  simp [padded, Buffer.zero]

theorem storeOverheard_eq (b : List Byte) (s : State) : storeOverheard b s =
    { s with ovh := { valid := true, len := BitVec.ofNat 5 b.length, bytes := padded b } } := by
  rw [storeOverheard, overlay_zero]
  rfl

theorem acksPending_iff (s : State) (b : List Byte) : acksPending s b = true ↔
    b.length = 3 ∧ s.pend.valid = true ∧
      decodeAck s.cfg.params.ackLayout b = .ok (s.pend.radioId.toNat, s.pend.messageId.toNat) := by
  simp [acksPending, and_assoc]

theorem ackMatches_iff (rid mid : Nat) (p : PendingMessage) :
    ackMatches rid mid p = true ↔ p.valid = true ∧ rid = p.radioId.toNat ∧ mid = p.messageId.toNat := by
  simp [ackMatches, and_assoc]

section afterReceiving
variable {s : State} {b : List Byte}

theorem afterReceiving_of_acksPending (h : acksPending s b = true) : afterReceiving b s = { s with
    pend := PendingMessage.zero
    out := { s.out with
      log := s.out.log ++ [.ackMatch s.pend.radioId.toNat s.pend.messageId.toNat] } } := by
  rw [afterReceiving, if_pos h]

/-- A beacon or an ack that ends no wait is kept where relaying is supported (R188, R190). -/
theorem afterReceiving_of_not_acksPending (h : acksPending s b = false) (hb : b.length = 16 ∨ b.length = 3) :
    afterReceiving b s = if s.cfg.params.supportsRelay then storeOverheard b s else s := by
  rw [afterReceiving, if_neg (Bool.eq_false_iff.mp h), if_pos hb, storeOverheard_eq]

theorem rxBeacon_eq_afterReceiving (h : b.length = 16) : rxBeacon b s = afterReceiving b s := by
  have hno : acksPending s b = false := by
    rw [Bool.eq_false_iff, ne_eq, acksPending_iff]
    omega
  rw [afterReceiving_of_not_acksPending hno (.inl h), rxBeacon]

theorem rxAck_eq_afterReceiving (h : b.length = 3) : rxAck b s = afterReceiving b s := by
  obtain ⟨⟨rid, mid⟩, hdec, -⟩ := decodeAck_total s.cfg.params.ackLayout h
  have hacks : acksPending s b = true ↔ ackMatches rid mid s.pend = true := by
    rw [acksPending_iff, ackMatches_iff, hdec, Except.ok.injEq, Prod.mk.injEq]
    exact and_iff_right h
  simp only [rxAck, hdec]
  obtain ⟨hm, hr⟩ | ⟨hm, hr⟩ := onAckReceived_cases rid mid s
  · obtain ⟨-, rfl, rfl⟩ := (ackMatches_iff rid mid s.pend).mp hm
    rw [afterReceiving_of_acksPending (hacks.mpr hm), hr, if_pos rfl]
    rfl
  · have hno : acksPending s b = false := Bool.eq_false_iff.mpr (hacks.not.mpr (Bool.eq_false_iff.mp hm))
    rw [afterReceiving_of_not_acksPending hno (.inr h), hr, if_neg nofun]

/-- R187 to R190: a frame taken in ACTIVE. -/
theorem takeFrame_active (hm : s.pss.mode = .active) (b : List Byte) : takeFrame b s = afterReceiving b s := by
  have hne : ¬s.pss.mode = .standby := mode_ne_standby.mpr hm
  rw [takeFrame, if_neg hne]
  split_ifs with h16 h3
  · exact rxBeacon_eq_afterReceiving h16
  · exact rxAck_eq_afterReceiving h3
  · have hno : ¬acksPending s b = true := fun h => h3 ((acksPending_iff s b).mp h).1
    rw [afterReceiving, if_neg hno, if_neg (not_or.mpr ⟨h16, h3⟩)]
    rfl

theorem takeFrame_standby (hm : s.pss.mode = .standby) (b : List Byte) : takeFrame b s = s := by
  rw [takeFrame, if_pos hm]

/-- R187: in STANDBY the received frame is taken and discarded. -/
theorem receivePhase_standby (hm : s.pss.mode = .standby) : receivePhase s = s.withRxQueue s.rxQueue.tail := by
  unfold receivePhase
  split
  next hq =>
    rw [hq, List.tail_nil, ← hq]
    rfl
  next f rest hq =>
    rw [hq, List.tail_cons]
    exact takeFrame_standby (s := s.withRxQueue rest) hm f.bytes

/-- R187: in ACTIVE the received frame, if any, is examined. -/
theorem receivePhase_active (hm : s.pss.mode = .active) : receivePhase s =
    (received? s).elim (s.withRxQueue s.rxQueue.tail) (afterReceiving · (s.withRxQueue s.rxQueue.tail)) := by
  unfold receivePhase received?
  split
  next hq =>
    rw [hq, List.head?_nil, Option.map_none, Option.elim_none, List.tail_nil, ← hq]
    rfl
  next f rest hq =>
    rw [hq, List.tail_cons, List.head?_cons, Option.map_some, Option.elim_some]
    exact takeFrame_active (s := s.withRxQueue rest) hm f.bytes

/-- Receiving writes no register of the sequencer but `STICKY` (R188 to R190). -/
theorem afterReceiving_pss (b : List Byte) (s : State) :
    ∃ st, (afterReceiving b s).pss = { s.pss with sticky := st } := by
  unfold afterReceiving
  split_ifs <;> exact ⟨_, rfl⟩

theorem afterReceiving_pend (b : List Byte) (s : State) :
    (afterReceiving b s).pend = s.pend ∨ (afterReceiving b s).pend = PendingMessage.zero := by
  unfold afterReceiving
  split_ifs
  · exact .inr rfl
  all_goals exact .inl rfl

theorem afterReceiving_frame (b : List Byte) (s : State) : PhaseFrame s (afterReceiving b s) := by
  unfold afterReceiving
  split_ifs <;> exact ⟨rfl, rfl, rfl, rfl, rfl, rfl⟩

end afterReceiving

/-! ### The drain and the polls (R182, R185, R186) -/

theorem standbyPhase_inputs (toggle : Bool) (s : State) : (standbyPhase toggle s).inputs = s.inputs := by
  simp only [standbyPhase]
  split_ifs <;> rfl

/-- The standby toggle commutes with any update of the sequencer that has no part in the mode, the active state and the
timers. -/
theorem standbyPhase_withPss {f : Sequencer → Sequencer} (hf : ∀ q m a i d r,
      f { q with mode := m, astate := a, idleStart := i, idleDur := d, relayStart := r } =
        { f q with mode := m, astate := a, idleStart := i, idleDur := d, relayStart := r })
    (toggle : Bool) (s : State) :
    (standbyPhase toggle s).withPss (f (standbyPhase toggle s).pss) = standbyPhase toggle (s.withPss (f s.pss)) := by
  have hkeeps : f s.pss = { f s.pss with
      mode := s.pss.mode, astate := s.pss.astate
      idleStart := s.pss.idleStart, idleDur := s.pss.idleDur, relayStart := s.pss.relayStart } := hf s.pss _ _ _ _ _
  have hmode : (f s.pss).mode = s.pss.mode := by rw [hkeeps]
  cases toggle with
  | false => rfl
  | true =>
    cases hm : s.pss.mode with
    | standby =>
      rw [standbyPhase_toActive hm, standbyPhase_toActive (hmode.trans hm)]
      exact congrArg (State.withPss _) (hf s.pss _ _ _ _ _)
    | active =>
      rw [standbyPhase_toStandby hm, standbyPhase_toStandby (hmode.trans hm)]
      have hset := congrArg (fun q : Sequencer => { q with mode := .standby, astate := .idle }) hkeeps
      exact congrArg (State.withPss _) ((hf s.pss .standby .idle _ _ _).trans hset.symm)

theorem panicPhase_standbyPhase (b toggle : Bool) (s : State) :
    panicPhase b (standbyPhase toggle s) = standbyPhase toggle (panicPhase b s) := by
  rw [panicPhase_eq, panicPhase_eq]
  exact standbyPhase_withPss (f := fun q => { q with
    panic := q.panic ^^ b, panicPending := q.panicPending || (b && !q.panic) }) (fun _ _ _ _ _ _ => rfl) toggle s

theorem gpsPhase_standbyPhase (toggle : Bool) (s : State) :
    gpsPhase (standbyPhase toggle s) = standbyPhase toggle (gpsPhase s) := by
  rw [gpsPhase_eq, gpsPhase_eq, standbyPhase_inputs]
  refine standbyPhase_withPss (fun q m a i d r => ?_) toggle s
  unfold withFix
  split
  · rfl
  · split_ifs <;> rfl

theorem withFix_keeps (g : Option GpsFix) (q : Sequencer) : ∃ lat lon utc valid,
    withFix g q = { q with fixLat := lat, fixLon := lon, fixUtc := utc, fixValid := valid } := by
  unfold withFix
  split
  · exact ⟨_, _, _, _, rfl⟩
  · split_ifs <;> exact ⟨_, _, _, _, rfl⟩

/-- The fix is latched with the requests drained and the panic flag toggled already. -/
theorem polled_eq (pn : Bool) (s : State) : polled pn s = withFix s.inputs.gps { s.pss with
    reqStandby := false
    reqPanic := false
    panic := s.pss.panic ^^ togglesPanic pn s
    panicPending := s.pss.panicPending || (togglesPanic pn s && !s.pss.panic) } := by
  unfold polled withFix
  split
  · rfl
  · split_ifs <;> rfl

section polled
variable (pn : Bool) (s : State)

theorem gpsPhase_panicPhase_drain :
    gpsPhase (panicPhase (togglesPanic pn s) (drainRequests s)) = s.withPss (polled pn s) := by
  rw [panicPhase_eq, gpsPhase_eq, polled_eq]
  rfl

@[simp] theorem polled_panic : (polled pn s).panic = (s.pss.panic ^^ togglesPanic pn s) := rfl

@[simp] theorem polled_mode : (polled pn s).mode = s.pss.mode := by
  obtain ⟨_, _, _, _, h⟩ := withFix_keeps s.inputs.gps s.pss
  rw [polled, h]

/-- The polls leave the control registers, the timers and the counter. -/
theorem polled_keeps : (polled pn s).astate = s.pss.astate ∧ (polled pn s).msgCounter = s.pss.msgCounter ∧
    (polled pn s).idleStart = s.pss.idleStart ∧ (polled pn s).idleDur = s.pss.idleDur ∧
    (polled pn s).relayStart = s.pss.relayStart := by
  obtain ⟨_, _, _, _, h⟩ := withFix_keeps s.inputs.gps s.pss
  rw [polled, h]
  exact ⟨rfl, rfl, rfl, rfl, rfl⟩

end polled

/-! ### The TICK by what it starts from (R181) -/

section execTick
variable {s : State} {sb : Bool} (pn : Bool)

/-- Phases 2 to 4 of a TICK are the drain and the polls, with the standby toggle after them as well as between. -/
theorem ticksUpToReceive_latched (s : State) : ticksUpToReceive (latchPanicEdge pn (latchStandbyEdge sb s)) =
    receivePhase (standbyPhase (toggles sb s) (s.withPss (polled pn s))) := by
  rw [← gpsPhase_panicPhase_drain, ← gpsPhase_standbyPhase, ← panicPhase_standbyPhase]
  rfl

/-- R183: a TICK that toggles `MODE` ends with the receive phase. -/
theorem exec_tick_of_toggles (h : toggles sb s = true) :
    exec (.tick sb pn) s = .next (receivePhase (standbyPhase true (s.withPss (polled pn s)))) := by
  have hreq : (latchPanicEdge pn (latchStandbyEdge sb s)).pss.reqStandby = true := h
  rw [exec_tick, tick, if_neg (by simp [hreq]), ticksUpToReceive_latched, h]

/-- Phases 1 to 5 of a TICK that does not toggle `MODE`. -/
theorem ticksUpToReceive_of_not_toggles (h : toggles sb s = false) :
    ticksUpToReceive (latchPanicEdge pn (latchStandbyEdge sb s)) = receivePhase (s.withPss (polled pn s)) := by
  rw [ticksUpToReceive_latched, h]
  rfl

theorem beforeStep_eq (s : State) : beforeStep pn s =
    (received? s).elim ((s.withPss (polled pn s)).withRxQueue s.rxQueue.tail)
      (afterReceiving · ((s.withPss (polled pn s)).withRxQueue s.rxQueue.tail)) := by
  unfold beforeStep
  cases received? s <;> rfl

theorem ticksUpToReceive_of_steps (h : Steps sb s) :
    ticksUpToReceive (latchPanicEdge pn (latchStandbyEdge sb s)) = beforeStep pn s := by
  obtain ⟨hm, ht⟩ := h
  have hmode : (s.withPss (polled pn s)).pss.mode = .active := (polled_mode pn s).trans hm
  rw [ticksUpToReceive_of_not_toggles pn ht, receivePhase_active hmode, beforeStep_eq]
  rfl

/-- What the state step starts from keeps the frame of the whole state. -/
theorem beforeStep_frame (s : State) : PhaseFrame s (beforeStep pn s) := by
  obtain ⟨ha, hc, -⟩ := polled_keeps pn s
  have hpolled : PhaseFrame s ((s.withPss (polled pn s)).withRxQueue s.rxQueue.tail) :=
    ⟨rfl, polled_mode pn s, ha, hc, rfl, rfl⟩
  rw [beforeStep_eq]
  cases received? s with
  | none => exact hpolled
  | some b => exact hpolled.trans (afterReceiving_frame b _)

theorem beforeStep_pss (s : State) : ∃ st, (beforeStep pn s).pss = { polled pn s with sticky := st } := by
  rw [beforeStep_eq]
  cases received? s with
  | none => exact ⟨_, rfl⟩
  | some b => exact afterReceiving_pss b _

theorem beforeStep_timers (s : State) : (beforeStep pn s).pss.idleStart = s.pss.idleStart ∧
    (beforeStep pn s).pss.idleDur = s.pss.idleDur ∧ (beforeStep pn s).pss.relayStart = s.pss.relayStart := by
  obtain ⟨st, h⟩ := beforeStep_pss pn s
  obtain ⟨-, -, htimers⟩ := polled_keeps pn s
  rw [h]
  exact htimers

theorem beforeStep_reqStandby (s : State) : (beforeStep pn s).pss.reqStandby = false := by
  obtain ⟨st, h⟩ := beforeStep_pss pn s
  rw [h]
  rfl

theorem beforeStep_panic (s : State) : (beforeStep pn s).pss.panic = (s.pss.panic ^^ togglesPanic pn s) := by
  obtain ⟨st, h⟩ := beforeStep_pss pn s
  rw [h, polled_panic]

/-- An entry that is pending after the receive phase is the one that was pending before it. -/
theorem beforeStep_pend_of_valid (h : (beforeStep pn s).pend.valid = true) : (beforeStep pn s).pend = s.pend := by
  rw [beforeStep_eq] at h ⊢
  cases hr : received? s with
  | none => rfl
  | some b =>
    rw [hr] at h
    refine (afterReceiving_pend b _).resolve_right fun hz => ?_
    rw [Option.elim_some, hz] at h
    cases h

/-- R181: in ACTIVE, a TICK that does not toggle `MODE` runs the state step after the receive phase. -/
theorem exec_tick_of_steps (h : Steps sb s) : exec (.tick sb pn) s = .next (stepPhase (beforeStep pn s)) := by
  have hmode : (beforeStep pn s).pss.mode = .active := (beforeStep_frame pn s).mode.trans h.1
  have hreq : (latchPanicEdge pn (latchStandbyEdge sb s)).pss.reqStandby = false := h.2
  rw [exec_tick, tick, ticksUpToReceive_of_steps pn h, if_pos ⟨hmode, hreq⟩]

end execTick

/-- Settles O28. -/
theorem tickInStandby : Obligations.TickInStandby := by
  intro s sb pn hm ht
  have hmode : (s.withPss (polled pn s)).pss.mode = .standby := (polled_mode pn s).trans hm
  have hphases := (ticksUpToReceive_of_not_toggles pn ht).trans (receivePhase_standby hmode)
  rw [exec_tick, tick, hphases, if_neg (by simp [hm])]
  rfl

/-- Settles O29: the toggle cancels the work before the receive phase, which then runs in STANDBY. -/
theorem toggleCancelsWork : Obligations.ToggleCancelsWork := by
  intro s sb pn hm ht
  have hmode : (s.withPss (polled pn s)).pss.mode = .active := (polled_mode pn s).trans hm
  rw [exec_tick_of_toggles pn ht, standbyPhase_toStandby hmode, receivePhase_standby rfl]
  rfl

/-- Settles O30: the toggle starts the timers before the receive phase, which then runs in ACTIVE. -/
theorem toggleEntersActive : Obligations.ToggleEntersActive := by
  intro s sb pn hm ht t
  have hmode : (s.withPss (polled pn s)).pss.mode = .standby := (polled_mode pn s).trans hm
  rw [exec_tick_of_toggles pn ht, standbyPhase_toActive hmode, receivePhase_active rfl]
  change Host.Outcome.next ((received? s).elim t (afterReceiving · t)) = _
  cases received? s <;> rfl

/-! ### The state step, by the `ASTATE` it starts from (R191) -/

theorem stepPhase_idle {r : State} (h : r.pss.astate = .idle) : stepPhase r = stepIdle r := by rw [stepPhase, h]

theorem stepPhase_transmit {r : State} (h : r.pss.astate = .transmit) : stepPhase r = stepTransmit r := by
  rw [stepPhase, h]

theorem stepPhase_awaitAck {r : State} (h : r.pss.astate = .awaitAck) : stepPhase r = stepAwaitAck r := by
  rw [stepPhase, h]

theorem stepPhase_relay {r : State} (h : r.pss.astate = .relay) : stepPhase r = stepRelay r := by rw [stepPhase, h]

/-! ### The IDLE step (R194) -/

/-- A timer of the sequencer is due after the receive phase when it is due at this TICK's `now`. -/
theorem timerDue_beforeStep_iff (pn : Bool) (s : State) (t0 : Word) (interval : Nat) :
    timerDue (beforeStep pn s) t0 interval = true ↔ Due s t0 interval := by
  rw [timerDue_iff, (beforeStep_frame pn s).inputs]
  rfl

/-- Settles O31. -/
theorem idleStep : Obligations.IdleStep := by
  intro s sb pn hs ha r
  obtain ⟨hcfg, -, hastate, -, -, -⟩ := beforeStep_frame pn s
  obtain ⟨hstart, hdur, hrelay⟩ := beforeStep_timers pn s
  have hidle : timerDue r r.pss.idleStart r.pss.idleDur.toNat = true ↔ Due s s.pss.idleStart s.pss.idleDur.toNat := by
    rw [timerDue_beforeStep_iff, hstart, hdur]
  have hrelayDue : (r.cfg.params.supportsRelay &&
        timerDue r r.pss.relayStart r.cfg.params.rangeExtenderInterval) = true ↔
      s.cfg.params.supportsRelay = true ∧ Due s s.pss.relayStart s.cfg.params.rangeExtenderInterval := by
    rw [Bool.and_eq_true, timerDue_beforeStep_iff, hrelay, hcfg]
  rw [exec_tick_of_steps pn hs, stepPhase_idle (hastate.trans ha), stepIdle]
  refine ⟨fun hp => ?_, fun hp hd => ?_, fun hp hd hsup hrd => ?_, fun hp hd hrd => ?_⟩
  · rw [if_pos hp]
    rfl
  · rw [if_neg (Bool.eq_false_iff.mp hp), if_pos (hidle.mpr hd)]
    rfl
  · rw [if_neg (Bool.eq_false_iff.mp hp), if_neg (hidle.not.mpr hd), if_pos (hrelayDue.mpr ⟨hsup, hrd⟩)]
    rfl
  · rw [if_neg (Bool.eq_false_iff.mp hp), if_neg (hidle.not.mpr hd), if_neg (hrelayDue.not.mpr hrd)]

/-! ### The TRANSMIT step (R195 to R197) -/

theorem send_eq_handed (b : List Byte) (s : State) : send b s = handed b s := by
  have hpss := send_pss s b
  rw [send_eq] at hpss ⊢
  exact congrArg (fun q => ({ handed b s with pss := q } : State)) hpss

/-- R195: of the node's own fields only the battery can be out of range. -/
theorem inRange_beaconFields_iff (s : State) : inRange (beaconFields s) = true ↔ s.inputs.battery.toNat ≤ 100 := by
  obtain ⟨-, -, -, -, -, -, -, hid⟩ := config_constraints s.cfg
  have hpanic := Bool.toNat_le s.pss.panic
  have hmid := s.pss.msgCounter.isLt
  have hlat := s.pss.fixLat.isLt
  have hlon := s.pss.fixLon.isLt
  have hutc := s.pss.fixUtc.isLt
  rw [inRange_iff]
  simp only [beaconFields]
  omega

theorem decide_toNat_bool_eq_one (b : Bool) : decide (b.toNat = 1) = b := by cases b <;> rfl

/-- R195: the packed field set is the node's beacon, bit by bit. -/
theorem encodeBeacon_beaconFields {s : State} (h : s.inputs.battery.toNat ≤ 100) :
    encodeBeacon (beaconFields s) = .ok (ownBeacon s) := by
  have hrange := (inRange_beaconFields_iff s).mpr h
  have hfits : (beaconFields s).fitsNew = true := by
    rcases inRange_fits hrange with ⟨-, hfit⟩ | ⟨hflag, -⟩
    · exact hfit
    · cases hflag
  have hpanic : decide ((beaconFields s).panic = 1) = s.pss.panic := decide_toNat_bool_eq_one s.pss.panic
  rw [encodeBeacon_ok hrange, insertBeacon_new_bits hfits, hpanic]
  simp only [beaconFields, BitVec.ofNat_toNat, BitVec.setWidth_eq]
  rfl

theorem startWait_of_pending {s : State} (h : s.pend.valid = true) :
    startWait s = emit .seqPending (setSticky { s.pss.sticky with seqPending := true } s) := by
  simp [startWait, beginWait, h]

section stepTransmit
variable {s : State}

theorem stepTransmit_fails (h : 100 < s.inputs.battery.toNat) : stepTransmit s = failTransmit s := by
  have hrange : inRange (beaconFields s) = false :=
    Bool.eq_false_iff.mpr ((inRange_beaconFields_iff s).not.mpr (Nat.not_le.mpr h))
  rw [stepTransmit, encodeBeacon_error hrange]

theorem stepTransmit_sends (h : s.inputs.battery.toNat ≤ 100) :
    stepTransmit s = finishTransmit (startWait (handed (ownBeacon s) s)) := by
  rw [← send_eq_handed, stepTransmit, encodeBeacon_beaconFields h]

/-- R195: with no entry pending, the wait opens with the old counter at `now`. -/
theorem stepTransmit_begins (h : s.inputs.battery.toNat ≤ 100) (hv : s.pend.valid = false) :
    stepTransmit s = { handed (ownBeacon s) s with
      pend := ⟨true, BitVec.ofNat 15 s.cfg.params.nodeRadioId, s.pss.msgCounter, s.inputs.now, 0⟩
      pss := { (handed (ownBeacon s) s).pss with msgCounter := s.pss.msgCounter + 1, astate := .awaitAck } } := by
  have hwait := startWait_of_not_pending (s := handed (ownBeacon s) s) hv
  rw [BitVec.ofNat_toNat, BitVec.setWidth_eq] at hwait
  rw [stepTransmit_sends h, hwait]
  rfl

/-- R195: an entry that is still pending stays, and is recorded. -/
theorem stepTransmit_recordsPending (h : s.inputs.battery.toNat ≤ 100) (hv : s.pend.valid = true) :
    stepTransmit s = { handed (ownBeacon s) s with
      pss := { (handed (ownBeacon s) s).pss with
        msgCounter := s.pss.msgCounter + 1, astate := .awaitAck
        sticky := { (handed (ownBeacon s) s).pss.sticky with seqPending := true } }
      out := { (handed (ownBeacon s) s).out with
        log := (handed (ownBeacon s) s).out.log ++ [.seqPending] } } := by
  rw [stepTransmit_sends h, startWait_of_pending (s := handed (ownBeacon s) s) hv]
  rfl

end stepTransmit

/-- Settles O32. -/
theorem transmitStep : Obligations.TransmitStep := by
  intro s sb pn hs ha r h
  obtain ⟨hcfg, -, hastate, hcounter, hinputs, -⟩ := beforeStep_frame pn s
  rw [exec_tick_of_steps pn hs, stepPhase_transmit (hastate.trans ha), ← hcfg, ← hcounter, ← hinputs]
  refine ⟨fun hb => ?_, fun hb hv => ?_, fun hb hv => ?_⟩
  · rw [stepTransmit_fails hb]
    rfl
  · rw [stepTransmit_begins hb hv]
  · rw [stepTransmit_recordsPending hb hv]

/-! ### The AWAIT_ACK step (R198) -/

section stepAwaitAck
variable {s : State}

theorem stepAwaitAck_of_not_pending (hv : s.pend.valid = false) : stepAwaitAck s = idleEntered s := by
  rw [stepAwaitAck, if_neg (Bool.eq_false_iff.mp hv)]
  rfl

theorem stepAwaitAck_of_due (hv : s.pend.valid = true) (hd : Due s s.pend.sentAt s.cfg.params.ackInterval) :
    stepAwaitAck s = idleEntered { s with
      pend := PendingMessage.zero
      out := { s.out with
        log := s.out.log ++ [.ackTimeout s.pend.radioId.toNat s.pend.messageId.toNat] } } := by
  have hpoll : pollTimeout s.inputs.now s = (.timeout, clearPending s) := if_pos ((ackDue_iff _ s).mpr ⟨hv, hd⟩)
  rw [stepAwaitAck, if_pos hv, hpoll]
  rfl

theorem stepAwaitAck_of_not_due (hv : s.pend.valid = true) (hd : ¬Due s s.pend.sentAt s.cfg.params.ackInterval) :
    stepAwaitAck s = s := by
  have hpoll : pollTimeout s.inputs.now s = (.none, s) := if_neg fun h => hd ((ackDue_iff _ s).mp h).2
  rw [stepAwaitAck, if_pos hv, hpoll]
  rfl

end stepAwaitAck

/-- Settles O33: an entry that the receive phase has left is the one the timeout is polled for. -/
theorem awaitAckStep : Obligations.AwaitAckStep := by
  intro s sb pn hs ha r
  obtain ⟨hcfg, -, hastate, -, hinputs, -⟩ := beforeStep_frame pn s
  have hdue (hv : r.pend.valid = true) : Due r r.pend.sentAt r.cfg.params.ackInterval ↔
      Due s s.pend.sentAt s.cfg.params.ackInterval := by
    rw [Due, Due, beforeStep_pend_of_valid pn hv, hcfg, hinputs]
  rw [exec_tick_of_steps pn hs, stepPhase_awaitAck (hastate.trans ha)]
  refine ⟨fun hv => ?_, fun hv hd => ?_, fun hv hd => ?_⟩
  · rw [stepAwaitAck_of_not_pending hv]
  · rw [stepAwaitAck_of_due hv ((hdue hv).mpr hd), beforeStep_pend_of_valid pn hv]
  · rw [stepAwaitAck_of_not_due hv ((hdue hv).not.mpr hd)]

/-! ### The RELAY step (R199, R260, R262) -/

section repack
variable {b : Buffer}

/-- R105: the radio id of a legacy frame fits seven bits when its high byte is 0 and its low byte is below 128. -/
theorem legacyRadioId_lt_iff (h : b[0].getLsbD 7 = false) :
    (b[0].extractLsb' 0 7 ++ b[1]).toNat < 2 ^ 7 ↔ b[0] = 0 ∧ b[1].toNat < 128 := by
  have h0 := b[0].isLt
  have h1 := b[1].isLt
  have hlow : b[0].toNat < 128 := by
    have hbit := (toNat_shiftRight_seven_eq_one_iff b[0]).not.mpr (Bool.eq_false_iff.mp h)
    rw [Nat.shiftRight_eq_div_pow] at hbit
    omega
  have hzero : b[0] = 0 ↔ b[0].toNat = 0 := BitVec.toNat_inj.symm
  rw [hzero, BitVec.toNat_append, shiftLeft_or_byte _ _ h1, BitVec.extractLsb'_toNat, Nat.shiftRight_zero]
  omega

theorem repacked_zero : (repacked b)[0] = 1#1 ++ b[1].extractLsb' 0 7 := by simp [repacked]

theorem repacked_one : (repacked b)[1] = 0 := by simp [repacked]

theorem repacked_past {k : Nat} (h : k < 16) (hk : 2 ≤ k) : (repacked b)[k] = b[k] := by
  simp [repacked, show ¬0 = k by omega, show ¬1 = k by omega]

theorem wordAt_repacked {o : Nat} (h : o + 3 < 16) (ho : 2 ≤ o) : wordAt (repacked b) o h = wordAt b o h := by
  rw [wordAt, repacked_past h (by omega), repacked_past (k := o + 2) (by omega) (by omega),
    repacked_past (k := o + 1) (by omega) (by omega), repacked_past (k := o) (by omega) ho]
  rfl

/-- R262, R263: the repacked frame holds the same fields in the new layout. -/
theorem extractBeacon_repacked (h0 : b[0] = 0) (h1 : b[1].toNat < 128) :
    extractBeacon (bufferBytes (repacked b) 16) =
      { extractBeacon (bufferBytes b 16) with formatFlag := 1, panic := 0 } := by
  have h : b[0].getLsbD 7 = false := by rw [h0]; rfl
  have hnew : (repacked b)[0].getLsbD 7 = true := by
    rw [repacked_zero, BitVec.getLsbD_append]
    simp
  have hrid : ((repacked b)[0].extractLsb' 0 7).toNat = (b[0].extractLsb' 0 7 ++ b[1]).toNat := by
    rw [repacked_zero, BitVec.extractLsb'_append_eq_right, h0, BitVec.toNat_append, shiftLeft_or_byte _ _ b[1].isLt,
      BitVec.extractLsb'_toNat, Nat.shiftRight_zero, Nat.mod_eq_of_lt h1]
    exact (Nat.zero_add _).symm
  have hmid : ((repacked b)[1].extractLsb' 0 7 ++ (repacked b)[2]).toNat = b[2].toNat := by
    rw [repacked_one, repacked_past (by decide) le_rfl, BitVec.toNat_append]
    simp
  have hpanic : ((repacked b)[1].extractLsb' 7 1).toNat = 0 := by
    rw [repacked_one]
    rfl
  rw [extractBeacon_bufferBytes_new _ hnew, extractBeacon_bufferBytes_legacy _ h, hrid, hmid, hpanic,
    wordAt_repacked _ (by decide), wordAt_repacked _ (by decide), wordAt_repacked _ (by decide),
    repacked_past (by decide) (by decide)]

theorem encodeBeacon_extractBeacon {f : List Byte} (hl : f.length = 16) (hb : byteAt f 11 ≤ 100) :
    encodeBeacon (extractBeacon f) = .ok f := by
  rw [encodeBeacon_ok ((inRange_extractBeacon_iff f).mpr hb), insertBeacon_extractBeacon hl]

/-- R260, R262, R304: repacking a legacy frame that stands in a buffer. -/
theorem repackLegacy_bufferBytes (h : b[0].getLsbD 7 = false) : repackLegacy (bufferBytes b 16) =
    if b[0] ≠ 0 ∨ 128 ≤ b[1].toNat then .error .radioIdOverflow
    else if 100 < b[11].toNat then .error .fieldRange
    else .ok (repacked b).toList := by
  have hlen : (bufferBytes b 16).length = 16 := bufferBytes_length b 16 le_rfl
  have hf := (formatBit_bufferBytes_ne_one_iff b (n := 16) (by decide) le_rfl).mpr h
  have hrid : 2 ^ 7 ≤ (extractBeacon (bufferBytes b 16)).radioId ↔ b[0] ≠ 0 ∨ 128 ≤ b[1].toNat := by
    rw [extractBeacon_bufferBytes_legacy b h]
    exact Nat.not_lt.symm.trans ((legacyRadioId_lt_iff h).not.trans (not_and_or.trans (or_congr_right Nat.not_lt)))
  have hbat : (extractBeacon (bufferBytes b 16)).batteryPercent = b[11].toNat := by
    rw [extractBeacon_bufferBytes_legacy b h]
  rw [repackLegacy, if_neg (not_not.mpr hlen), if_neg hf]
  by_cases hover : b[0] ≠ 0 ∨ 128 ≤ b[1].toNat
  · rw [if_pos hover]
    exact if_pos (hrid.mpr hover)
  · rw [if_neg hover]
    refine (if_neg (hrid.not.mpr hover)).trans ?_
    by_cases hbattery : 100 < b[11].toNat
    · rw [if_pos hbattery]
      exact if_pos (hbat ▸ hbattery)
    · rw [if_neg hbattery]
      obtain ⟨h0, h1⟩ := not_or.mp hover
      have hlenR : (bufferBytes (repacked b) 16).length = 16 := bufferBytes_length _ 16 le_rfl
      have hbatR : byteAt (bufferBytes (repacked b) 16) 11 ≤ 100 := by
        rw [byteAt_bufferBytes_getElem _ (by decide) le_rfl, repacked_past (by decide) (by decide)]
        exact Nat.not_lt.mp hbattery
      have henc := encodeBeacon_extractBeacon hlenR hbatR
      rw [extractBeacon_repacked (not_not.mp h0) (Nat.not_le.mp h1), ← toList_eq_bufferBytes (repacked b)] at henc
      exact (if_neg (hbat ▸ hbattery)).trans henc

end repack

section stepRelay
variable {s : State}

/-- R199: a legacy beacon that stands in the overheard buffer is repacked. -/
theorem relayFrame_legacy {o : Overheard} (hl : o.len = 16) (h : o.bytes[0].getLsbD 7 = false) :
    relayFrame o = repackLegacy (bufferBytes o.bytes 16) := by
  have hne := (formatBit_bufferBytes_ne_one_iff o.bytes (n := 16) (by decide) le_rfl).mpr h
  have hle := formatBit_le_one (bufferBytes o.bytes 16)
  have hlen : o.len.toNat = 16 := by rw [hl]; rfl
  rw [relayFrame, hlen]
  exact if_pos ⟨hl, by omega⟩

/-- R199: any other frame is passed on as it stands. -/
theorem relayFrame_other {o : Overheard} (h : ¬(o.len = 16 ∧ o.bytes[0].getLsbD 7 = false)) :
    relayFrame o = .ok (o.bytes.toList.take o.len.toNat) := by
  refine if_neg fun ⟨hl, hf⟩ => h ⟨hl, ?_⟩
  have hlen : o.len.toNat = 16 := by rw [hl]; rfl
  rw [hlen] at hf
  exact (formatBit_bufferBytes_ne_one_iff o.bytes (n := 16) (by decide) le_rfl).mp (by omega)

/-- R199: the end of the RELAY step, at `now`: the buffer is empty, the interval restarts, and the backoff is kept. -/
def relayDone (now : Word) (s : State) : State :=
  { s with ovh := Overheard.zero, pss := { s.pss with relayStart := now, astate := .idle } }

theorem stepRelay_of_not_valid (hv : s.ovh.valid = false) :
    stepRelay s = { s with pss := { s.pss with relayStart := s.inputs.now, astate := .idle } } := by
  rw [stepRelay, forwardOverheard, if_neg (Bool.eq_false_iff.mp hv)]
  rfl

theorem stepRelay_of_forwards (hv : s.ovh.valid = true) {f : List Byte} (hf : relayFrame s.ovh = .ok f) :
    stepRelay s = relayDone s.inputs.now (handed f s) := by
  rw [stepRelay, forwardOverheard, if_pos hv, hf]
  dsimp only
  rw [send_eq_handed]
  rfl

theorem stepRelay_of_drops (hv : s.ovh.valid = true) {e : ErrorCode} (hf : relayFrame s.ovh = .error e) :
    stepRelay s = relayDone s.inputs.now { s with
      pss := { s.pss with sticky := { s.pss.sticky with relayDrop := true } }
      out := { s.out with log := s.out.log ++ [.relayDrop e] } } := by
  rw [stepRelay, forwardOverheard, if_pos hv, hf]
  rfl

end stepRelay

/-- Settles O34: a frame is sent when it can be repacked or is no legacy beacon, and else dropped with its error. -/
theorem relayStep : Obligations.RelayStep := by
  intro s sb pn hs ha r done
  obtain ⟨-, -, hastate, -, hinputs, -⟩ := beforeStep_frame pn s
  rw [exec_tick_of_steps pn hs, stepPhase_relay (hastate.trans ha), ← hinputs]
  refine ⟨fun hv => ?_, fun hv hl hb hrep => ?_, fun hv hl hb hrep => ?_, fun hv hother => ?_⟩
  · rw [stepRelay_of_not_valid hv]
  · obtain ⟨h0, h1, h11⟩ := hrep
    have hforward : relayFrame r.ovh = .ok (repacked r.ovh.bytes).toList := by
      rw [relayFrame_legacy hl hb, repackLegacy_bufferBytes hb, if_neg (not_or.mpr ⟨not_not.mpr h0, by omega⟩),
        if_neg (by omega)]
    rw [stepRelay_of_forwards hv hforward, hinputs]
    rfl
  · have hdrop : relayFrame r.ovh = .error
        (if r.ovh.bytes[0] ≠ 0 ∨ 128 ≤ r.ovh.bytes[1].toNat then .radioIdOverflow else .fieldRange) := by
      rw [relayFrame_legacy hl hb, repackLegacy_bufferBytes hb]
      split_ifs with hover hbat
      · rfl
      · rfl
      · obtain ⟨h0, h1⟩ := not_or.mp hover
        exact absurd ⟨not_not.mp h0, by omega, by omega⟩ hrep
    rw [stepRelay_of_drops hv hdrop, hinputs]
    rfl
  · rw [stepRelay_of_forwards hv (relayFrame_other hother), hinputs]
    rfl

/-! ### Transitions (R180, R192) -/

/-- R180: what a standby toggle ends in. -/
theorem receivePhase_standbyPhase_control (s : State) :
    (receivePhase (standbyPhase true s)).pss.mode = s.pss.mode.toggle ∧
      (receivePhase (standbyPhase true s)).pss.astate = .idle := by
  obtain ⟨-, hm, ha, -, -, -⟩ := receivePhase_frame (standbyPhase true s)
  exact ⟨hm.trans (standbyPhase_true_mode s), ha.trans (standbyPhase_true_astate s)⟩

/-- R192: the state step makes a transition of ACTIVE, or stays in IDLE or AWAIT_ACK. -/
theorem StateStep.allowed {s t : State} (h : StateStep s t) (hm : s.pss.mode = .active)
    (hr : s.pss.astate = .relay → s.cfg.params.supportsRelay = true) :
    allowedTransition s.cfg.params.supportsRelay (s.pss.mode, s.pss.astate) (t.pss.mode, t.pss.astate) = true := by
  rw [h.mode, hm]
  cases h with
  | idleStays ha => rw [ha]; rfl
  | panicTransmits ha => rw [ha]; rfl
  | idleEnds ha => rw [ha]; rfl
  | relayStarts ha hsup => rw [ha, hsup]; rfl
  | transmitFails ha => rw [ha]; rfl
  | transmits r ha _ =>
    obtain ⟨st, hpss⟩ := transmit_pss r s
    rw [ha, hpss]
    rfl
  | waitStays ha _ => rw [ha]; rfl
  | waitTimesOut e ha => rw [ha]; rfl
  | waitEnds ha _ => rw [ha]; rfl
  | relays ha => rw [ha, hr ha]; rfl

/-- Settles O36: a toggle ends in IDLE of the other mode, STANDBY stays, and a state step is one of the table. -/
theorem tickTransitions : Obligations.TickTransitions := by
  intro s sb pn h
  cases ht : toggles sb s with
  | true =>
    obtain ⟨hmode, hidle⟩ := receivePhase_standbyPhase_control (s.withPss (polled pn s))
    refine ⟨_, exec_tick_of_toggles pn ht, ?_⟩
    rw [hmode, hidle, withPss_pss, polled_mode]
    cases hm : s.pss.mode with
    | standby => rw [(h.standbyQuiet hm).1]; rfl
    | active => cases s.pss.astate <;> rfl
  | false =>
    cases hm : s.pss.mode with
    | standby =>
      obtain ⟨ha, -⟩ := h.standbyQuiet hm
      obtain ⟨hkept, -⟩ := polled_keeps pn s
      refine ⟨_, tickInStandby s sb pn hm ht, ?_⟩
      dsimp only
      rw [polled_mode, hkept, hm, ha]
      rfl
    | active =>
      obtain ⟨hcfg, hmode, hastate, -, -, -⟩ := beforeStep_frame pn s
      have hrelay (ha : s.pss.astate = .relay) : s.cfg.params.supportsRelay = true :=
        (Bool.not_eq_false _).mp fun hc => (h.relayGated hc).1 ha
      have hstep := stepPhase_stateStep (beforeStep pn s)
      rw [← hm]
      refine ⟨_, exec_tick_of_steps pn ⟨hm, ht⟩, ?_⟩
      have hallowed := hstep.allowed (hmode.trans hm) (by rw [hastate, hcfg]; exact hrelay)
      rw [hcfg, hmode, hastate] at hallowed
      exact hallowed

/-! ### A transmission and its ack (R195, R198, R202) -/

theorem beforeStep_safe {s : State} {sb : Bool} (pn : Bool) (h : Safe s) (hs : Steps sb s) :
    SafeMidTick (beforeStep pn s) := by
  rw [← ticksUpToReceive_of_steps pn hs]
  exact ticksUpToReceive_safe ((latchEdges_keepsControl s sb pn).safe h)

/-- R201: in a safe state in TRANSMIT no entry is pending, whatever the receive phase does. -/
theorem beforeStep_not_pending {s : State} {sb : Bool} (pn : Bool) (h : Safe s) (hs : Steps sb s)
    (ha : s.pss.astate = .transmit) : (beforeStep pn s).pend.valid = false := by
  obtain ⟨-, hmode, hastate, -, -, -⟩ := beforeStep_frame pn s
  exact (beforeStep_safe pn h hs).not_pending (hmode.trans hs.1) (by simp [hastate, ha])

/-- R151: the node's beacon decodes to the fields it was packed from. -/
theorem decodeBeacon_ownBeacon {s : State} (h : s.inputs.battery.toNat ≤ 100) :
    decodeBeacon (ownBeacon s) = .ok (beaconFields s) := by
  obtain ⟨b, henc, hdec⟩ := decodeBeacon_encodeBeacon ((inRange_beaconFields_iff s).mpr h)
  rw [encodeBeacon_beaconFields h] at henc
  cases henc
  exact hdec

/-- Settles O37: the beacon is packed after the tick's panic toggle, from the counter it began with. -/
theorem transmittedBeaconDecodes : Obligations.TransmittedBeaconDecodes := by
  intro s sb pn h hs ha hb
  obtain ⟨hcfg, -, -, hcounter, hinputs, hsent⟩ := beforeStep_frame pn s
  obtain ⟨-, hbegins, -⟩ := transmitStep s sb pn hs ha
  have hdec : decodeBeacon (ownBeacon (beforeStep pn s)) = .ok (beaconFields (beforeStep pn s)) :=
    decodeBeacon_ownBeacon (by rw [hinputs]; exact hb)
  refine ⟨_, _, _, _, hbegins hb (beforeStep_not_pending pn h hs ha), congrArg (· ++ _) hsent, hdec, rfl, ?_, ?_,
    rfl, beforeStep_panic pn s⟩
  · rw [beaconFields, hcfg]
  · rw [beaconFields, hcounter]

/-- R190: what the state step starts from when the received frame is the pending entry's ack. -/
theorem beforeStep_of_acked {s : State} (pn : Bool) {b : List Byte} (hb : received? s = some b)
    (h : acksPending s b = true) : beforeStep pn s = { s with
      pend := PendingMessage.zero
      pss := polled pn s
      rxQueue := s.rxQueue.tail
      out := { s.out with
        log := s.out.log ++ [.ackMatch s.pend.radioId.toNat s.pend.messageId.toNat] } } := by
  rw [beforeStep_eq, hb, Option.elim_some]
  exact afterReceiving_of_acksPending h

/-- Settles O38: the entry holds the pair that the ack decodes to, so the ack clears it, and AWAIT_ACK with no entry
enters IDLE. -/
theorem ackEndsTheWait : Obligations.AckEndsTheWait := by
  intro s sb pn h hs ha hb
  obtain ⟨hcfg, hmode, -, -, -, -⟩ := beforeStep_frame pn s
  obtain ⟨-, hbegins, -⟩ := transmitStep s sb pn hs ha
  obtain ⟨-, -, -, -, -, -, -, hid⟩ := config_constraints s.cfg
  obtain ⟨b, henc⟩ := encodeAck_accepts s.cfg.params.ackLayout (.inl ⟨hid, s.pss.msgCounter.isLt⟩)
  obtain ⟨hlen, hdec⟩ := ackRoundTrip _ _ _ _ henc
  have hdrained := beforeStep_reqStandby pn s
  refine ⟨_, b, hbegins hb (beforeStep_not_pending pn h hs ha), henc, hmode.trans hs.1, rfl, hdrained, ?_⟩
  intro u pn' hucfg hupend humode huastate hureq ⟨f, rest, hqueue, hf⟩
  have hactive : u.pss.mode = .active := humode.trans (hmode.trans hs.1)
  have hsteps : Steps false u := ⟨hactive, (Bool.or_false _).trans (hureq.trans hdrained)⟩
  have hreceived : received? u = some b := by
    rw [received?, hqueue, List.head?_cons, Option.map_some, hf]
  have hrid : u.pend.radioId.toNat = s.cfg.params.nodeRadioId := by
    rw [hupend, BitVec.toNat_ofNat]
    omega
  have hmid : u.pend.messageId.toNat = s.pss.msgCounter.toNat := by rw [hupend]
  have hacks : acksPending u b = true := by
    have hlayout : u.cfg.params.ackLayout = s.cfg.params.ackLayout := by rw [hucfg, ← hcfg]; rfl
    rw [acksPending_iff, hrid, hmid, hlayout]
    exact ⟨hlen, by rw [hupend], hdec⟩
  have hacked := beforeStep_of_acked pn' hreceived hacks
  rw [hrid, hmid] at hacked
  obtain ⟨hends, -⟩ := awaitAckStep u false pn' hsteps huastate
  obtain ⟨-, hmode', -, -, hinputs, -⟩ := beforeStep_frame pn' u
  exact ⟨_, hends (congrArg (·.pend.valid) hacked), congrArg State.pend hacked, hmode'.trans hactive, rfl,
    congrArg Inputs.now hinputs, congrArg (·.out.log) hacked⟩

end Sys2Proof.Machine
end

section
/-! SUPPORT. Proofs of the statements cited from 42_ack_tracker.md: the ACT commands (R240 to R243) in both modes
(R239), each by what the tracker operation it calls answers in STANDBY (R231 to R235). -/

namespace Sys2Proof.Machine

open Sys2Proof.Claims

/-! ### An ACT command by the mode (R239) -/

section instructions
variable (s : State)

theorem exec_beginWait : exec .beginWait s = .next (whenStandby beginWaitCommand s) := rfl

theorem exec_ackReceived : exec .ackReceived s = .next (whenStandby ackReceivedCommand s) := rfl

theorem exec_pollTimeout : exec .pollTimeout s = .next (whenStandby pollTimeoutCommand s) := rfl

theorem exec_abortWait : exec .abortWait s = .next (whenStandby abortWaitCommand s) := rfl

end instructions

section modes
variable {i : Instr} {run : State → State} {s : State}

theorem exec_of_active (hexec : exec i s = .next (whenStandby run s)) (hm : s.pss.mode = .active) :
    exec i s = .next (raised .busy s) := by
  rw [hexec, whenStandby, if_pos hm]
  rfl

theorem exec_of_standby (hexec : exec i s = .next (whenStandby run s)) (hm : s.pss.mode = .standby) :
    exec i s = .next (run s) := by
  have hne : ¬s.pss.mode = .active := by rw [hm]; nofun
  rw [hexec, whenStandby, if_neg hne]

end modes

/-! ### ABORT_WAIT (R234, R243) -/

theorem abortWaitCommand_eq (s : State) : abortWaitCommand s = { s with
    pend := PendingMessage.zero
    host := { s.host with outcome := .none, err := .ok } } := rfl

/-- Settles O19: in STANDBY the entry is cleared whether or not it holds one. -/
theorem abortWaitClears : Obligations.AbortWaitClears := by
  intro s
  refine ⟨exec_of_active (exec_abortWait s), fun hm => ?_⟩
  rw [exec_of_standby (exec_abortWait s) hm, abortWaitCommand_eq]
  rfl

/-! ### BEGIN_WAIT (R231, R240) -/

section beginWaitCommand
variable {s : State}

theorem beginWaitCommand_of_large (h : 2 ^ 15 ≤ s.host.fRadioId.toNat ∨ 2 ^ 15 ≤ s.host.fMessageId.toNat) :
    beginWaitCommand s = raised .fieldRange s := by
  rw [beginWaitCommand, if_pos h]
  rfl

theorem beginWaitCommand_of_pending (hr : s.host.fRadioId.toNat < 2 ^ 15) (hi : s.host.fMessageId.toNat < 2 ^ 15)
    (hv : s.pend.valid = true) : beginWaitCommand s = raised .pendingExists s := by
  rw [beginWaitCommand, if_neg (by omega), beginWait, if_pos hv]
  rfl

theorem beginWaitCommand_of_not_pending (hr : s.host.fRadioId.toNat < 2 ^ 15)
    (hi : s.host.fMessageId.toNat < 2 ^ 15) (hv : s.pend.valid = false) : beginWaitCommand s = { s with
      pend := ⟨true, s.host.fRadioId.setWidth 15, s.host.fMessageId.setWidth 15, s.inputs.now, 0⟩
      host := { s.host with outcome := .none, err := .ok } } := by
  rw [beginWaitCommand, if_neg (by omega), beginWait, if_neg (Bool.eq_false_iff.mp hv), BitVec.ofNat_toNat,
    BitVec.ofNat_toNat]
  rfl

end beginWaitCommand

/-- Settles O16: the ids are checked before the entry. -/
theorem beginWaitOpensEntry : Obligations.BeginWaitOpensEntry := by
  intro s
  refine ⟨exec_of_active (exec_beginWait s), fun hm h => ?_, fun hm hr hi hv => ?_, fun hm hr hi hv => ?_⟩
  · rw [exec_of_standby (exec_beginWait s) hm, beginWaitCommand_of_large h]
  · rw [exec_of_standby (exec_beginWait s) hm, beginWaitCommand_of_pending hr hi hv]
  · rw [exec_of_standby (exec_beginWait s) hm, beginWaitCommand_of_not_pending hr hi hv]

/-! ### ACK_RECEIVED (R232, R241) -/

/-- A register holds an id of the entry when the two are the same number, no bit of the register left out. -/
theorem eq_setWidth_iff_toNat_eq (w : Word) (x : BitVec 15) : w = x.setWidth 32 ↔ w.toNat = x.toNat := by
  rw [← BitVec.toNat_inj, BitVec.toNat_setWidth_of_le (by decide)]

/-- R241: the operand registers hold the pair of the pending entry. -/
def PresentsPending (s : State) : Prop :=
  s.pend.valid = true ∧ s.host.fRadioId = s.pend.radioId.setWidth 32 ∧
    s.host.fMessageId = s.pend.messageId.setWidth 32

theorem ackMatches_operands_iff (s : State) :
    ackMatches s.host.fRadioId.toNat s.host.fMessageId.toNat s.pend = true ↔ PresentsPending s := by
  rw [ackMatches_iff, PresentsPending, eq_setWidth_iff_toNat_eq, eq_setWidth_iff_toNat_eq]

section ackReceivedCommand
variable {s : State}

theorem ackReceivedCommand_of_presents (h : PresentsPending s) : ackReceivedCommand s = { s with
    pend := PendingMessage.zero
    host := { s.host with outcome := .matched, err := .ok } } := by
  rw [ackReceivedCommand, onAckReceived, if_pos ((ackMatches_operands_iff s).mpr h)]
  rfl

theorem ackReceivedCommand_of_not_presents (h : ¬PresentsPending s) : ackReceivedCommand s = { s with
    host := { s.host with outcome := .none, err := .ok } } := by
  rw [ackReceivedCommand, onAckReceived, if_neg ((ackMatches_operands_iff s).not.mpr h)]
  rfl

end ackReceivedCommand

/-- Settles O17: the tracker compares the numbers in the registers, which is to compare the whole registers. -/
theorem ackReceivedMatches : Obligations.AckReceivedMatches := by
  intro s
  refine ⟨exec_of_active (exec_ackReceived s), fun hm hv hr hi => ?_, fun hm h => ?_⟩
  · rw [exec_of_standby (exec_ackReceived s) hm, ackReceivedCommand_of_presents ⟨hv, hr, hi⟩]
    rfl
  · rw [exec_of_standby (exec_ackReceived s) hm, ackReceivedCommand_of_not_presents h]

/-! ### POLL_TIMEOUT (R233, R242) -/

section pollTimeoutCommand
variable {s : State}

theorem pollTimeoutCommand_of_due (hv : s.pend.valid = true) (hd : Due s s.pend.sentAt s.cfg.params.ackInterval) :
    pollTimeoutCommand s = { s with
      pend := PendingMessage.zero
      host := { s.host with outcome := .timeout, err := .ok } } := by
  rw [pollTimeoutCommand, pollTimeout, if_pos ((ackDue_iff _ s).mpr ⟨hv, hd⟩)]
  rfl

theorem pollTimeoutCommand_of_not_due
    (h : ¬(s.pend.valid = true ∧ Due s s.pend.sentAt s.cfg.params.ackInterval)) :
    pollTimeoutCommand s = { s with host := { s.host with outcome := .none, err := .ok } } := by
  rw [pollTimeoutCommand, pollTimeout, if_neg ((ackDue_iff _ s).not.mpr h)]
  rfl

end pollTimeoutCommand

/-- Settles O18: `Due` is the comparison the tracker makes at `now`, boundary included. -/
theorem pollTimeoutDetects : Obligations.PollTimeoutDetects := by
  intro s
  refine ⟨exec_of_active (exec_pollTimeout s), fun hm hv hd => ?_, fun hm h => ?_⟩
  · rw [exec_of_standby (exec_pollTimeout s) hm, pollTimeoutCommand_of_due hv hd]
    rfl
  · rw [exec_of_standby (exec_pollTimeout s) hm, pollTimeoutCommand_of_not_due h]

end Sys2Proof.Machine
end

section
/-! SUPPORT. Proofs of the statements cited from 43_legacy_adapter.md: what a repack accepts and gives (R260, R262,
R263), and the command that repacks the frame buffer (R261) by the checks of R304. -/

namespace Sys2Proof.Machine

open Sys2Proof.Claims

/-! ### The pure function (R260, R263) -/

theorem repackLegacy_of_new {b : List Byte} (hl : b.length = 16) (hf : formatBit b = 1) :
    repackLegacy b = .error .notLegacy := by
  rw [repackLegacy, if_neg (not_not.mpr hl), if_pos hf]

/-- R260: only a legacy frame repacks, and then its fields are encoded again in the new layout. -/
theorem repackLegacy_ok {b o : List Byte} (h : repackLegacy b = .ok o) : b.length = 16 ∧ formatBit b ≠ 1 ∧
    encodeBeacon { extractBeacon b with formatFlag := 1, panic := 0 } = .ok o := by
  unfold repackLegacy at h
  dsimp only at h
  split_ifs at h with hl hf
  exact ⟨not_not.mp hl, hf, h⟩

theorem encodeBeacon_ok_inRange {fs : FieldSet} {o : List Byte} (h : encodeBeacon fs = .ok o) :
    inRange fs = true ∧ insertBeacon fs = o := by
  cases hr : inRange fs with
  | false =>
    rw [encodeBeacon_error hr] at h
    cases h
  | true =>
    rw [encodeBeacon_ok hr] at h
    cases h
    exact ⟨rfl, rfl⟩

/-- Settles O13: the repacked bytes are the encoding of the decoded fields with the flag set, so they decode to those
fields (R151) and their format bit is 1. -/
theorem repackPreservesFields : Obligations.RepackPreservesFields := by
  intro b o h
  obtain ⟨hl, hf, henc⟩ := repackLegacy_ok h
  obtain ⟨hflag, -, hpanic, -, -⟩ := (fitsLegacy_iff _).mp (extractBeacon_fitsLegacy hf)
  obtain ⟨hrange, rfl⟩ := encodeBeacon_ok_inRange henc
  have hnew : FieldSet.fitsNew { extractBeacon b with formatFlag := 1, panic := 0 } = true := by
    rcases inRange_fits hrange with ⟨-, hfit⟩ | ⟨hzero, -⟩
    · exact hfit
    · cases hzero
  refine ⟨extractBeacon b, decodeBeacon_ok hl, hflag, hpanic, ?_, ?_⟩
  · rw [decodeBeacon_ok (insertBeacon_length _), extractBeacon_insertBeacon_new hnew, hpanic]
  · exact repackLegacy_of_new (insertBeacon_length _) (formatBit_insertBeacon_new hnew)

/-- R262: a legacy frame whose radio id fits the new layout is refused for its battery byte only. -/
theorem repackLegacy_bufferBytes_of_small {b : Buffer} (h0 : b[0] = 0) (h1 : b[1].toNat < 128) :
    repackLegacy (bufferBytes b 16) =
      if 100 < b[11].toNat then .error .fieldRange else .ok (repacked b).toList := by
  have hleg : b[0].getLsbD 7 = false := by rw [h0]; rfl
  rw [repackLegacy_bufferBytes hleg, if_neg (not_or.mpr ⟨not_not.mpr h0, Nat.not_le.mpr h1⟩)]

/-! ### REPACK_LEGACY (R261) -/

section repackCommand
variable {s : State}

theorem exec_repackLegacy_invalidSize (h : s.host.frameLen ≠ 16) :
    exec .repackLegacy s = .next (raised .invalidSize s) := by
  rw [exec, execRepackLegacy, if_pos h]
  rfl

theorem exec_repackLegacy_error (hlen : s.host.frameLen = 16) {e : ErrorCode}
    (h : repackLegacy (bufferBytes s.host.frame 16) = .error e) : exec .repackLegacy s = .next (raised e s) := by
  rw [exec, execRepackLegacy, if_neg (not_not.mpr hlen), frameBytes, h]
  rfl

/-- R261: sixteen bytes are stored, so `FRAME_LEN` keeps its value. -/
theorem exec_repackLegacy_ok (hlen : s.host.frameLen = 16) {f : Buffer}
    (h : repackLegacy (bufferBytes s.host.frame 16) = .ok f.toList) :
    exec .repackLegacy s = .next { s with host := { s.host with frame := f, err := .ok } } := by
  have hframe : overlay s.host.frame f.toList = f := by rw [overlay_eq_padded _ f.length_toList, padded_toList]
  have hkept : BitVec.ofNat 32 f.toList.length = s.host.frameLen := by
    rw [f.length_toList, hlen]
    rfl
  rw [exec, execRepackLegacy, if_neg (not_not.mpr hlen), frameBytes, h]
  dsimp only
  rw [storeFrame, hframe, hkept]
  rfl

end repackCommand

/-- Settles O6: the size and format checks, then the checks of a legacy frame in the order of R304. -/
theorem repackRewritesHeader : Obligations.RepackRewritesHeader := by
  refine fun s => ⟨exec_repackLegacy_invalidSize, fun hlen hnew => ?_, fun hlen hleg hover => ?_,
    fun hlen h0 h1 h11 => ?_, fun hlen hrep => ?_⟩
  · exact exec_repackLegacy_error hlen (repackLegacy_of_new (bufferBytes_length _ _ le_rfl)
      ((formatBit_bufferBytes_eq_one_iff _ (by decide) le_rfl).mpr hnew))
  · apply exec_repackLegacy_error hlen
    rw [repackLegacy_bufferBytes hleg, if_pos hover]
  · apply exec_repackLegacy_error hlen
    rw [repackLegacy_bufferBytes_of_small h0 h1, if_pos h11]
  · obtain ⟨h0, h1, h11⟩ := hrep
    apply exec_repackLegacy_ok hlen
    rw [repackLegacy_bufferBytes_of_small h0 h1, if_neg (Nat.not_lt.mpr h11)]

end Sys2Proof.Machine
end

section
/-! SUPPORT. Proofs of the statements cited from 44_basestation_accessors.md: the two accessors by the fields of the
frame they read (R280, R281), and the ack of a decoded beacon (R282). -/

namespace Sys2Proof.Machine

open Sys2Proof.Claims

/-! ### The ids of a frame in the buffer, by its format bit (R101, R102) -/

theorem ofNat_radioId_bufferBytes (b : Buffer) : BitVec.ofNat 32 (extractBeacon (bufferBytes b 16)).radioId =
    if b[0].getLsbD 7 then (b[0].extractLsb' 0 7).setWidth 32
    else (b[0].extractLsb' 0 7 ++ b[1]).setWidth 32 := by
  cases h : b[0].getLsbD 7 with
  | true =>
    rw [extractBeacon_bufferBytes_new b h]
    exact BitVec.ofNat_toNat ..
  | false =>
    rw [extractBeacon_bufferBytes_legacy b h]
    exact BitVec.ofNat_toNat ..

theorem ofNat_messageId_bufferBytes (b : Buffer) : BitVec.ofNat 32 (extractBeacon (bufferBytes b 16)).messageId =
    if b[0].getLsbD 7 then (b[1].extractLsb' 0 7 ++ b[2]).setWidth 32 else b[2].setWidth 32 := by
  cases h : b[0].getLsbD 7 with
  | true =>
    rw [extractBeacon_bufferBytes_new b h]
    exact BitVec.ofNat_toNat ..
  | false =>
    rw [extractBeacon_bufferBytes_legacy b h]
    exact BitVec.ofNat_toNat ..

/-! ### GET_RADIO_ID and GET_MESSAGE_ID (R280, R281) -/

section accessors
variable {s : State}

theorem exec_getRadioId_invalidSize (h : s.host.frameLen ≠ 16) :
    exec .getRadioId s = .next (raised .invalidSize s) := by
  rw [exec, execGetRadioId, if_pos h]
  rfl

theorem exec_getMessageId_invalidSize (h : s.host.frameLen ≠ 16) :
    exec .getMessageId s = .next (raised .invalidSize s) := by
  rw [exec, execGetMessageId, if_pos h]
  rfl

theorem exec_getRadioId_ok (h : s.host.frameLen = 16) : exec .getRadioId s = .next { s with host := { s.host with
    fRadioId := BitVec.ofNat 32 (extractBeacon (bufferBytes s.host.frame 16)).radioId, err := .ok } } := by
  rw [exec, execGetRadioId, if_neg (not_not.mpr h), frameBytes, decodeBeacon_ok (bufferBytes_length _ _ le_rfl)]
  rfl

theorem exec_getMessageId_ok (h : s.host.frameLen = 16) : exec .getMessageId s = .next { s with host := { s.host with
    fMessageId := BitVec.ofNat 32 (extractBeacon (bufferBytes s.host.frame 16)).messageId, err := .ok } } := by
  rw [exec, execGetMessageId, if_neg (not_not.mpr h), frameBytes, decodeBeacon_ok (bufferBytes_length _ _ le_rfl)]
  rfl

end accessors

/-- Settles O7: each accessor stores one field of the decoded frame, in the layout bit 7 of byte 0 selects. -/
theorem accessorsReadOneField : Obligations.AccessorsReadOneField := by
  refine fun s => ⟨fun hlen => ⟨exec_getRadioId_invalidSize hlen, exec_getMessageId_invalidSize hlen⟩,
    fun hlen => ⟨?_, ?_⟩⟩
  · rw [exec_getRadioId_ok hlen, ofNat_radioId_bufferBytes]
  · rw [exec_getMessageId_ok hlen, ofNat_messageId_bufferBytes]

/-! ### The ack of a decoded beacon (R282) -/

/-- R149: whatever the frame, its ids are a pair that an ack can carry. -/
theorem fitsBeacon_extractBeacon (b : List Byte) :
    FitsBeacon (extractBeacon b).radioId (extractBeacon b).messageId := by
  by_cases hf : formatBit b = 1
  · obtain ⟨-, hrid, -, hmid, -⟩ := (fitsNew_iff _).mp (extractBeacon_fitsNew hf)
    exact .inl ⟨hrid, hmid⟩
  · obtain ⟨-, hrid, -, hmid, -⟩ := (fitsLegacy_iff _).mp (extractBeacon_fitsLegacy hf)
    exact .inr ⟨hrid, hmid⟩

/-- A field register holds every id of a beacon. -/
theorem FitsBeacon.toNat_ofNat {rid mid : Nat} (h : FitsBeacon rid mid) :
    FitsBeacon (BitVec.ofNat 32 rid).toNat (BitVec.ofNat 32 mid).toNat := by
  unfold FitsBeacon at *
  rw [BitVec.toNat_ofNat, BitVec.toNat_ofNat]
  omega

theorem bufferBytes_headReplaced (old : Buffer) {b : List Byte} (h : b.length = 3) :
    bufferBytes (headReplaced old b) 3 = b := by
  rw [← overlay_eq_headReplaced old h, ← h, bufferBytes_overlay old (by omega)]

/-- R162, R150: for a pair of a beacon, ENCODE_ACK leaves three bytes that decode to the pair in the field registers,
under the layout of the state. -/
theorem exec_encodeAck_of_fitsBeacon {s : State} (h : FitsBeacon s.host.fRadioId.toNat s.host.fMessageId.toNat) :
    ∃ u, exec .encodeAck s = .next u ∧ u.host.err = .ok ∧ u.host.frameLen = 3 ∧
      decodeAck s.cfg.params.ackLayout (bufferBytes u.host.frame 3) =
        .ok (s.host.fRadioId.toNat, s.host.fMessageId.toNat) := by
  obtain ⟨b, henc⟩ := encodeAck_accepts s.cfg.params.ackLayout h
  obtain ⟨hlen, hdec⟩ := ackRoundTrip _ _ _ _ henc
  refine ⟨_, exec_encodeAck_ok henc, rfl, rfl, ?_⟩
  rw [bufferBytes_headReplaced _ hlen, hdec]

/-- Settles O15: the decoded ids fit an ack under every layout, and DECODE_BEACON keeps the layout. -/
theorem ackOfDecodedBeacon : Obligations.AckOfDecodedBeacon := by
  intro s hlen
  have hids := (fitsBeacon_extractBeacon (bufferBytes s.host.frame 16)).toNat_ofNat
  obtain ⟨u, hexec, herr, hlen3, hdec⟩ := exec_encodeAck_of_fitsBeacon
    (s := complete (s.withHost (writeFields s.host (extractBeacon (bufferBytes s.host.frame 16))))) hids
  exact ⟨_, u, exec_decodeBeacon_ok hlen, hexec, herr, hlen3, hdec⟩

end Sys2Proof.Machine
end

section
/-! SUPPORT. Proofs of the statements cited from 45_host_port.md: the word an RD returns at each index (R26, R60, R290),
where a WR stores and what it issues (R291, R292), and what the commands leave alone (R293, R294). -/

namespace Sys2Proof.Machine

open Sys2Proof.Claims

/-! ### STATUS and STICKY as sums of their fields (R25, R26) -/

/-- Two words side by side, as a sum. -/
theorem toNat_append_eq_add {m n : Nat} (x : BitVec m) (y : BitVec n) :
    (x ++ y).toNat = x.toNat * 2 ^ n + y.toNat := by
  rw [BitVec.toNat_append, ← Nat.shiftLeft_add_eq_or_of_lt y.isLt, Nat.shiftLeft_eq]

theorem ErrorCode.toNat_code (e : ErrorCode) : e.code.toNat = errNumber e := by
  cases e <;> rfl

theorem AckOutcome.toNat_code (o : AckOutcome) : o.code.toNat = outcomeNumber o := by
  cases o <;> rfl

theorem Mode.toNat_code (m : Mode) : m.code.toNat = modeNumber m := by
  cases m <;> rfl

theorem ActiveState.toNat_code (a : ActiveState) : a.code.toNat = astateNumber a := by
  cases a <;> rfl

/-- A word is given by its number. -/
theorem eq_ofNat_of_toNat_eq {w : Word} {n : Nat} (h : w.toNat = n) : w = BitVec.ofNat 32 n := by
  rw [← h, BitVec.ofNat_toNat, BitVec.setWidth_eq]

theorem composeStatus_eq_statusWord (s : State) : composeStatus s = statusWord s := by
  apply eq_ofNat_of_toNat_eq
  simp only [composeStatus, toNat_append_eq_add, BitVec.toNat_ofBool, ErrorCode.toNat_code, AckOutcome.toNat_code,
    Mode.toNat_code, ActiveState.toNat_code, BitVec.toNat_ofNat]
  omega

theorem composeSticky_eq_stickyWord (t : Sticky) : composeSticky t = stickyWord t := by
  apply eq_ofNat_of_toNat_eq
  simp only [composeSticky, toNat_append_eq_add, BitVec.toNat_ofBool, BitVec.toNat_ofNat]
  omega

/-! ### The register map, region by region (R60) -/

/-- A buffer's byte registers are its bytes, zero-extended. -/
theorem getD_byteRegisters (b : Buffer) (k : Nat) :
    (b.toList.map (BitVec.setWidth 32)).getD k 0 = (bufferByte b k).setWidth 32 := by
  have hbyte : b.toList.getD k 0 = bufferByte b k := by
    by_cases hk : k < 16 <;> simp [bufferByte, Vector.getD, List.getD_eq_getElem?_getD, hk]
  rw [← hbyte]
  exact List.getD_map b.toList 0 (BitVec.setWidth 32)

section regions
variable (s : State) {k : Nat}

theorem registerWords_getD_below_frame (h : k < 0x10) : (registerWords s).getD k 0 = readNamed s k := by
  rw [registerWords, ← composeStatus_eq_statusWord, ← composeSticky_eq_stickyWord]
  interval_cases k <;> rfl

theorem registerWords_getD_frame (hlo : 0x10 ≤ k) (hhi : k < 0x20) :
    (registerWords s).getD k 0 = (bufferByte s.host.frame (k - 0x10)).setWidth 32 := by
  rw [registerWords, List.getD_append _ _ _ _ (by simp; omega), List.getD_append _ _ _ _ (by simp; omega),
    List.getD_append_right _ _ _ _ hlo]
  exact getD_byteRegisters s.host.frame (k - 0x10)

theorem registerWords_getD_between_buffers (hlo : 0x20 ≤ k) (hhi : k < 0x30) :
    (registerWords s).getD k 0 = readNamed s k := by
  rw [registerWords, List.getD_append _ _ _ _ (by simp; omega), List.getD_append_right _ _ _ _ (by simpa using hlo)]
  simp only [List.length_append, List.length_map, Vector.length_toList, List.length_cons, List.length_nil]
  interval_cases k <;> rfl

theorem registerWords_getD_overheard (h : 0x30 ≤ k) :
    (registerWords s).getD k 0 = (bufferByte s.ovh.bytes (k - 0x30)).setWidth 32 := by
  rw [registerWords, List.getD_append_right _ _ _ _ (by simpa using h), ← getD_byteRegisters]
  simp

end regions

/-- R290, R60: an index reads the word of its place in the register map. -/
theorem readRegister_eq (s : State) (i : BitVec 6) : readRegister s i = (registerWords s).getD i.toNat 0 := by
  unfold readRegister
  dsimp only
  split_ifs with hframe hovh
  · obtain ⟨hlo, hhi⟩ := hframe
    rw [registerWords_getD_frame s hlo hhi]
  · rw [registerWords_getD_overheard s hovh]
  · rcases Nat.lt_or_ge i.toNat 0x10 with hlo | hlo
    · rw [registerWords_getD_below_frame s hlo]
    · rw [registerWords_getD_between_buffers s (by omega) (by omega)]

/-- Settles O21: an RD answers `readRegister`, which reads the register map. -/
theorem rdReturnsRegister : Obligations.RdReturnsRegister := by
  intro s i
  rw [← readRegister_eq]
  rfl

/-! ### WR (R291) -/

section wr
variable (s : State) (d : Word)

theorem exec_wr_cmd : exec (.wr 0 d) s = issue d s := by
  rw [exec, execWr, if_pos rfl]

theorem exec_wr_of_ne_cmd {i : BitVec 6} (h : i ≠ 0) :
    exec (.wr i d) s = .next (s.withHost (writeRegister s.host i d)) := by
  rw [exec, execWr, if_neg h]

/-- R291: outside `CMD` and the frame, a WR writes what the table of the named registers says. -/
theorem exec_wr_named {i : BitVec 6} (hcmd : i ≠ 0) (hframe : ¬(0x10 ≤ i.toNat ∧ i.toNat < 0x20)) :
    exec (.wr i d) s = .next (s.withHost (writeNamed s.host d i.toNat)) := by
  rw [exec_wr_of_ne_cmd s d hcmd, writeRegister, if_neg hframe]

/-- R60: the named RW registers are `FRAME_LEN` to `F_UTC`. -/
theorem writeNamed_of_not_rw (h : HostPort) {k : Nat} (hk : k < 0x03 ∨ 0x0C ≤ k) : writeNamed h d k = h := by
  unfold writeNamed
  split
  case h_10 => rfl
  all_goals omega

theorem setBufferByte_eq_ofFn (b : Buffer) (k : Nat) (v : Byte) :
    setBufferByte b k v = Vector.ofFn fun j => if j.val = k then v else b[j] := by
  ext j hj
  simp [setBufferByte, Vector.getElem_setIfInBounds, eq_comm]

/-- R291: a WR of a byte register stores the low byte of its word. -/
theorem exec_wr_frame {i : BitVec 6} (hlo : 0x10 ≤ i.toNat) (hhi : i.toNat ≤ 0x1F) :
    exec (.wr i d) s = .next { s with host := { s.host with
      frame := Vector.ofFn fun k => if k.val + 16 = i.toNat then d.extractLsb' 0 8 else s.host.frame[k] } } := by
  have hcmd : i ≠ 0 := by bv_omega
  have hbyte : ∀ k : Nat, k = i.toNat - 0x10 ↔ k + 16 = i.toNat := by omega
  rw [exec_wr_of_ne_cmd s d hcmd, writeRegister, if_pos ⟨hlo, by omega⟩, setBufferByte_eq_ofFn]
  simp only [hbyte]
  rfl

/-- R291: a WR of a read-only or reserved index has no effect. -/
theorem exec_wr_not_rw {i : BitVec 6} (h : i = 1 ∨ i = 2 ∨ (0x0C ≤ i.toNat ∧ i.toNat ≤ 0x0F) ∨ 0x20 ≤ i.toNat) :
    exec (.wr i d) s = .next s := by
  have hcmd : i ≠ 0 := by bv_omega
  have hframe : ¬(0x10 ≤ i.toNat ∧ i.toNat < 0x20) := by bv_omega
  have hrw : i.toNat < 0x03 ∨ 0x0C ≤ i.toNat := by bv_omega
  rw [exec_wr_named s d hcmd hframe, writeNamed_of_not_rw d s.host hrw, withHost_self]

/-- R292: a command word issues its command. -/
theorem issue_of_command {c : Command} (h : d.toNat = commandNumber c) : issue d s = exec c.toInstr s := by
  rw [issue, (decodeCommand_eq_some_iff d c).mpr h, exec_toInstr]

/-- R292: a word above the opcode map is no command. -/
theorem issue_of_illegal (h : 11 < d.toNat) : issue d s = .next (raised .illegalCommand s) := by
  rw [issue, decodeCommand_eq_none h]
  rfl

end wr

/-- Settles O22: the nine RW registers are rows of `writeNamed`. -/
theorem wrStoresOrIssues : Obligations.WrStoresOrIssues := by
  intro s i d
  refine ⟨fun c hc => (exec_wr_cmd s d).trans (issue_of_command s d hc),
    fun hd => (exec_wr_cmd s d).trans (issue_of_illegal s d hd),
    ?_, ?_, ?_, ?_, ?_, ?_, ?_, ?_, ?_, exec_wr_frame s d, exec_wr_not_rw s d⟩
  all_goals exact exec_wr_named s d (by decide) (by decide)

/-! ### NOP (R293) -/

/-- Settles O20: NOP is the end of a command that does not raise (R303). -/
theorem nopClearsError : Obligations.NopClearsError :=
  fun s => congrArg Host.Outcome.next (complete_eq s)

/-! ### What the commands leave alone (R294) -/

/-- A PKU command and NOP read and write nothing but the host port. -/
theorem runCommand_hostOnly {c : Command} (h : isTracker c = false) : HostOnly (runCommand c) := by
  cases c with
  | nop => exact execNop_hostOnly
  | encodeBeacon => exact execEncodeBeacon_hostOnly
  | decodeBeacon => exact execDecodeBeacon_hostOnly
  | encodeAck => exact execEncodeAck_hostOnly
  | decodeAck => exact execDecodeAck_hostOnly
  | repackLegacy => exact execRepackLegacy_hostOnly
  | getRadioId => exact execGetRadioId_hostOnly
  | getMessageId => exact execGetMessageId_hostOnly
  | beginWait | ackReceived | pollTimeout | abortWait => cases h

/-- What such a meaning writes is the same in every state with this configuration and host port. -/
theorem HostOnly.writes_same_host {run : State → Host.Outcome State Fault Refusal} (hr : HostOnly run) (s : State) :
    ∃ h, ∀ s' : State, s.cfg = s'.cfg → s.host = s'.host → run s' = .next (s'.withHost h) := by
  obtain ⟨h, hrun, -⟩ := hr s s rfl rfl
  refine ⟨h, fun s' hcfg hhost => ?_⟩
  obtain ⟨h', hrun', hother⟩ := hr s s' hcfg hhost
  have hsame : h' = h := congrArg State.host (Host.Outcome.next.inj (hrun'.symm.trans hrun))
  rw [hother, hsame]

/-- The two states differ in the host port registers and the pending entry at most. -/
def SameButHostAndPend (s t : State) : Prop := t = { s with host := t.host, pend := t.pend }

section tracker
variable (s : State)

theorem beginWaitCommand_sameButHostAndPend : SameButHostAndPend s (beginWaitCommand s) := by
  unfold beginWaitCommand
  split_ifs
  · rfl
  · obtain ⟨-, h⟩ | ⟨-, h⟩ :=
      beginWait_cases s.host.fRadioId.toNat s.host.fMessageId.toNat s.inputs.now s <;> rw [h] <;> rfl

theorem ackReceivedCommand_sameButHostAndPend : SameButHostAndPend s (ackReceivedCommand s) := by
  unfold ackReceivedCommand
  obtain ⟨-, h⟩ | ⟨-, h⟩ :=
    onAckReceived_cases s.host.fRadioId.toNat s.host.fMessageId.toNat s <;> rw [h] <;> rfl

theorem pollTimeoutCommand_sameButHostAndPend : SameButHostAndPend s (pollTimeoutCommand s) := by
  unfold pollTimeoutCommand
  obtain ⟨-, h⟩ | ⟨-, h⟩ := pollTimeout_cases s.inputs.now s <;> rw [h] <;> rfl

/-- An ACT command is held back in ACTIVE, and in STANDBY writes the host port and the pending entry at most (R239). -/
theorem exec_tracker {c : Command} (h : isTracker c = true) : ∃ run : State → State,
    exec c.toInstr s = .next (whenStandby run s) ∧ SameButHostAndPend s (run s) := by
  cases c with
  | beginWait => exact ⟨_, exec_beginWait s, beginWaitCommand_sameButHostAndPend s⟩
  | ackReceived => exact ⟨_, exec_ackReceived s, ackReceivedCommand_sameButHostAndPend s⟩
  | pollTimeout => exact ⟨_, exec_pollTimeout s, pollTimeoutCommand_sameButHostAndPend s⟩
  | abortWait => exact ⟨_, exec_abortWait s, rfl⟩
  | nop | encodeBeacon | decodeBeacon | encodeAck | decodeAck | repackLegacy | getRadioId | getMessageId => cases h

theorem whenStandby_sameButHostAndPend {run : State → State} (h : SameButHostAndPend s (run s)) :
    SameButHostAndPend s (whenStandby run s) := by
  obtain ⟨-, hw⟩ | ⟨-, hw⟩ := whenStandby_cases run s
  · rw [hw]
    rfl
  · rwa [hw]

end tracker

/-- Settles O25: a command that is no ACT command sees the same host port in both modes, so writes the same one. -/
theorem commandsLeaveSequencer : Obligations.CommandsLeaveSequencer := by
  intro c s
  cases hc : isTracker c with
  | false =>
    obtain ⟨h, hrun⟩ := (runCommand_hostOnly hc).writes_same_host s
    simp only [exec_toInstr]
    exact ⟨s.withHost h, hrun s rfl rfl, rfl, fun _ => ⟨rfl, fun m => hrun _ rfl rfl⟩, nofun⟩
  | true =>
    obtain ⟨run, hexec, hrun⟩ := exec_tracker s hc
    refine ⟨_, hexec, whenStandby_sameButHostAndPend s hrun, nofun, fun _ hm => ?_⟩
    rw [whenStandby, if_pos hm]
    rfl

end Sys2Proof.Machine
end

section
/-! SUPPORT. Proofs of the statements cited from 60_exceptions.md: how each command ends (R301 to R303), that no
instruction stops the machine (R305, R307), and what reaches `Send` (R325). -/

namespace Sys2Proof.Machine

open Sys2Proof.Claims

/-! ### The errors of the pure functions (R301) -/

theorem encodeBeacon_error_eq {fs : FieldSet} {e : ErrorCode} (h : encodeBeacon fs = .error e) : e = .fieldRange := by
  unfold encodeBeacon at h
  split_ifs at h
  cases h
  rfl

theorem encodeAck_error_eq {l : AckLayout} {rid mid : Nat} {e : ErrorCode} (h : encodeAck l rid mid = .error e) :
    e = .fieldRange := by
  unfold encodeAck at h
  split at h <;> split at h <;> cases h <;> rfl

theorem repackLegacy_error_mem {b : List Byte} {e : ErrorCode} (h : repackLegacy b = .error e) :
    e ∈ possibleErrors .repackLegacy := by
  unfold repackLegacy at h
  dsimp only at h
  split_ifs at h
  · cases h; decide
  · cases h; decide
  · cases h; decide
  · cases h; decide
  · rw [encodeBeacon_error_eq h]; decide

/-! ### The end of a command (R302, R303) -/

/-- How a command that can raise `errs` ends in `s`: with `STATUS.ERR` 0, or in a raise of one of them. -/
inductive Ends (errs : List ErrorCode) (s : State) : State → Prop
  | completes {t : State} : t.host.err = .ok → Ends errs s t
  | raises {e : ErrorCode} : e ∈ errs → Ends errs s (raised e s)

section ends
variable (s : State)

/-- R148: a command whose only check is that `FRAME_LEN` is `n`. -/
theorem ends_of_size_guard {i : Instr} (n : Word)
    (hraise : s.host.frameLen ≠ n → exec i s = .next (raised .invalidSize s))
    (hok : s.host.frameLen = n → Answers (exec i s) fun t => t.host.err = .ok) :
    Answers (exec i s) (Ends [.invalidSize] s) := by
  by_cases hlen : s.host.frameLen = n
  · exact (hok hlen).mono fun t => .completes
  · exact ⟨_, hraise hlen, .raises (List.mem_singleton_self _)⟩

/-- R239: an ACT command ends in Busy, or as it does in STANDBY. -/
theorem whenStandby_ends {errs : List ErrorCode} {run : State → State} (hbusy : .busy ∈ errs)
    (hrun : Ends errs s (run s)) : Ends errs s (whenStandby run s) := by
  obtain ⟨-, h⟩ | ⟨-, h⟩ := whenStandby_cases run s
  · rw [h]
    exact .raises hbusy
  · rwa [h]

theorem encodeBeacon_ends : Answers (exec .encodeBeacon s) (Ends (possibleErrors .encodeBeacon) s) := by
  cases h : encodeBeacon (operandFields s.host) with
  | ok r => exact ⟨_, exec_encodeBeacon_ok h, .completes rfl⟩
  | error e =>
    cases encodeBeacon_error_eq h
    exact ⟨_, exec_encodeBeacon_error h, .raises (by decide)⟩

theorem encodeAck_ends : Answers (exec .encodeAck s) (Ends (possibleErrors .encodeAck) s) := by
  cases h : encodeAck s.cfg.params.ackLayout s.host.fRadioId.toNat s.host.fMessageId.toNat with
  | ok r => exact ⟨_, exec_encodeAck_ok h, .completes rfl⟩
  | error e =>
    cases encodeAck_error_eq h
    exact ⟨_, exec_encodeAck_error h, .raises (by decide)⟩

theorem decodeAck_ends : Answers (exec .decodeAck s) (Ends (possibleErrors .decodeAck) s) := by
  refine ends_of_size_guard s 3 exec_decodeAck_error fun hlen => ?_
  obtain ⟨⟨rid, mid⟩, hdec, -⟩ :=
    decodeAck_total s.cfg.params.ackLayout (bufferBytes_length s.host.frame 3 (by decide))
  exact ⟨_, exec_decodeAck_ok hlen hdec, rfl⟩

/-- R261: the bytes a repack gives are stored, and the command completes. -/
theorem exec_repackLegacy_stores (hlen : s.host.frameLen = 16) {r : List Byte}
    (h : repackLegacy (bufferBytes s.host.frame 16) = .ok r) :
    exec .repackLegacy s = .next (complete (storeFrame r s)) := by
  rw [exec, execRepackLegacy, if_neg (not_not.mpr hlen), frameBytes, h]

theorem repackLegacy_ends : Answers (exec .repackLegacy s) (Ends (possibleErrors .repackLegacy) s) := by
  by_cases hlen : s.host.frameLen = 16
  · cases h : repackLegacy (bufferBytes s.host.frame 16) with
    | ok r => exact ⟨_, exec_repackLegacy_stores s hlen h, .completes rfl⟩
    | error e => exact ⟨_, exec_repackLegacy_error hlen h, .raises (repackLegacy_error_mem h)⟩
  · exact ⟨_, exec_repackLegacy_invalidSize hlen, .raises (by decide)⟩

theorem beginWaitCommand_ends : Ends (possibleErrors .beginWait) s (beginWaitCommand s) := by
  by_cases hlarge : 2 ^ 15 ≤ s.host.fRadioId.toNat ∨ 2 ^ 15 ≤ s.host.fMessageId.toNat
  · rw [beginWaitCommand_of_large hlarge]
    exact .raises (by decide)
  · obtain ⟨hr, hi⟩ := not_or.mp hlarge
    cases hv : s.pend.valid with
    | true =>
      rw [beginWaitCommand_of_pending (not_le.mp hr) (not_le.mp hi) hv]
      exact .raises (by decide)
    | false =>
      rw [beginWaitCommand_of_not_pending (not_le.mp hr) (not_le.mp hi) hv]
      exact .completes rfl

/-- R301 to R303: what every command ends with. -/
theorem exec_ends (c : Command) : Answers (exec c.toInstr s) (Ends (possibleErrors c) s) := by
  cases c with
  | nop => exact ⟨_, nopClearsError s, .completes rfl⟩
  | encodeBeacon => exact encodeBeacon_ends s
  | decodeBeacon =>
    exact ends_of_size_guard s 16 exec_decodeBeacon_error fun hlen => ⟨_, exec_decodeBeacon_ok hlen, rfl⟩
  | encodeAck => exact encodeAck_ends s
  | decodeAck => exact decodeAck_ends s
  | repackLegacy => exact repackLegacy_ends s
  | getRadioId =>
    exact ends_of_size_guard s 16 exec_getRadioId_invalidSize fun hlen => ⟨_, exec_getRadioId_ok hlen, rfl⟩
  | getMessageId =>
    exact ends_of_size_guard s 16 exec_getMessageId_invalidSize fun hlen => ⟨_, exec_getMessageId_ok hlen, rfl⟩
  | beginWait => exact ⟨_, exec_beginWait s, whenStandby_ends s (by decide) (beginWaitCommand_ends s)⟩
  | ackReceived => exact ⟨_, exec_ackReceived s, whenStandby_ends s (by decide) (.completes rfl)⟩
  | pollTimeout => exact ⟨_, exec_pollTimeout s, whenStandby_ends s (by decide) (.completes rfl)⟩
  | abortWait => exact ⟨_, exec_abortWait s, whenStandby_ends s (by decide) (.completes rfl)⟩

end ends

/-- Settles O23: a command that does not complete ends in a raise, and a raise writes `STATUS.ERR` only. -/
theorem raiseIsPrecise : Obligations.RaiseIsPrecise := by
  intro c s t hexec herr
  obtain ⟨u, hu, hends⟩ := exec_ends s c
  cases hexec.symm.trans hu
  cases hends with
  | completes hok => exact absurd hok herr
  | raises _ => rfl

theorem decodeCommand_eq_none_of_no_command {d : Word} (h : ∀ c, d.toNat ≠ commandNumber c) :
    decodeCommand d = none :=
  Option.eq_none_iff_forall_ne_some.mpr fun c hc => h c ((decodeCommand_eq_some_iff d c).mp hc)

/-- Settles O24: the errors by the way each command ends, and a word of no command decodes to none. -/
theorem errorsByCommand : Obligations.ErrorsByCommand := by
  refine ⟨fun c s => (exec_ends s c).mono fun t hends => ?_, fun d s hd => ?_⟩
  · cases hends with
    | completes hok => exact .inl hok
    | raises he => exact .inr he
  · rw [exec_wr_cmd, issue, decodeCommand_eq_none_of_no_command hd]
    rfl

/-! ### No instruction stops the machine (R305, R307) -/

/-- Settles O48: RESET and a TICK answer in every state, and so does every instruction that keeps the control part. -/
theorem everyInstructionCompletes : Obligations.EveryInstructionCompletes := by
  intro i s
  obtain rfl | ⟨sb, pn, rfl⟩ | hk := reset_or_tick_or_keepsControl i
  · obtain ⟨t, ht, -⟩ := execReset_mode s
    exact ⟨t, ht⟩
  · exact ⟨_, exec_tick s sb pn⟩
  · obtain ⟨t, ht, -⟩ := hk s
    exact ⟨t, ht⟩

/-! ### What reaches `Send` (R325) -/

/-- One more sequence is handed to `Send`, of a beacon's or an ack's length, from TRANSMIT or RELAY. -/
def SendsFrame (s t : State) : Prop :=
  ∃ b, t.out.sent = s.out.sent ++ [⟨b, s.inputs.sendOk⟩] ∧ (b.length = 16 ∨ b.length = 3) ∧
    (s.pss.astate = .transmit ∨ s.pss.astate = .relay)

theorem encodeBeacon_length {fs : FieldSet} {r : List Byte} (h : encodeBeacon fs = .ok r) : r.length = 16 := by
  obtain ⟨-, rfl⟩ := encodeBeacon_ok_inRange h
  exact insertBeacon_length fs

/-- R51, R199: RELAY forwards a repacked beacon, or the bytes the buffer holds. -/
theorem relayFrame_length {s : State} (hs : OverheardShaped s) (hv : s.ovh.valid = true) {f : List Byte}
    (h : relayFrame s.ovh = .ok f) : f.length = 16 ∨ f.length = 3 := by
  obtain ⟨hlen, -⟩ := hs.2 hv
  by_cases hleg : s.ovh.len = 16 ∧ s.ovh.bytes[0].getLsbD 7 = false
  · rw [relayFrame_legacy hleg.1 hleg.2] at h
    obtain ⟨-, -, henc⟩ := repackLegacy_ok h
    exact .inl (encodeBeacon_length henc)
  · rw [relayFrame_other hleg] at h
    cases h
    exact hlen.imp (fun hl => by simp [hl]) (fun hl => by simp [hl])

theorem stepRelay_sent {s : State} (hs : OverheardShaped s) (ha : s.pss.astate = .relay) :
    (stepRelay s).out.sent = s.out.sent ∨ SendsFrame s (stepRelay s) := by
  cases hv : s.ovh.valid with
  | false => exact .inl (by rw [stepRelay_of_not_valid hv])
  | true =>
    cases hf : relayFrame s.ovh with
    | ok f => exact .inr ⟨f, by rw [stepRelay_of_forwards hv hf]; rfl, relayFrame_length hs hv hf, .inr ha⟩
    | error e => exact .inl (by rw [stepRelay_of_drops hv hf]; rfl)

/-- R194 to R199: only TRANSMIT and RELAY reach `Send`, and each once. -/
theorem StateStep.sent {s t : State} (h : StateStep s t) (hs : OverheardShaped s) :
    t.out.sent = s.out.sent ∨ SendsFrame s t := by
  cases h with
  | transmits r ha hr =>
    exact .inr ⟨r, (startWait_sent _).trans (send_sent s r), .inl (encodeBeacon_length hr), .inl ha⟩
  | relays ha => exact stepRelay_sent hs ha
  | _ => exact .inl rfl

theorem standbyPhase_sent (b : Bool) (s : State) : (standbyPhase b s).out.sent = s.out.sent := by
  cases b with
  | false => rfl
  | true =>
    cases hm : s.pss.mode with
    | standby => rw [standbyPhase_toActive hm]; rfl
    | active => rw [standbyPhase_toStandby hm]; rfl

theorem ticksUpToReceive_sent (s : State) : (ticksUpToReceive s).out.sent = s.out.sent :=
  (ticksUpToReceive_frame s).sent.trans (standbyPhase_sent _ _)

theorem tick_sent {s : State} (h : Safe s) :
    (tick s).out.sent = s.out.sent ∨ (s.pss.mode = .active ∧ SendsFrame s (tick s)) := by
  obtain ⟨hm, hr, hstep⟩ | ⟨-, htick⟩ := tick_cases s
  · obtain ⟨-, -, hastate, -, hinputs, hsent⟩ := ticksUpToReceive_frame_of_not_toggles hr
    have hstepSent := hstep.sent (ticksUpToReceive_safe h).overheardShaped
    rw [SendsFrame, hastate, hinputs, hsent] at hstepSent
    exact hstepSent.imp_right fun hsends => ⟨hm, hsends⟩
  · exact .inl (by rw [htick, ticksUpToReceive_sent])

theorem execReset_sent (s : State) : Answers (execReset s) fun t => t.out.sent = s.out.sent := by
  cases h : s.inputs.switchActive with
  | false => exact ⟨_, execReset_standby h, rfl⟩
  | true => exact ⟨_, execReset_active h, standbyPhase_sent true _⟩

/-- Settles O53: RESET and the instructions that keep the control part send nothing, and of a TICK only the state step
sends. -/
theorem sendAtMostOncePerTick : Obligations.SendAtMostOncePerTick := by
  intro i s hs
  obtain rfl | ⟨sb, pn, rfl⟩ | hk := reset_or_tick_or_keepsControl i
  · exact (execReset_sent s).mono fun t ht => .inl ht
  · refine ⟨_, rfl, (tick_sent ((latchEdges_keepsControl s sb pn).safe hs)).imp_right ?_⟩
    rintro ⟨hm, b, hsent, hlen, ha⟩
    exact ⟨b, hsent, hlen, ⟨sb, pn, rfl⟩, hm, ha⟩
  · exact (hk s).mono fun t k => .inl k.sent

end Sys2Proof.Machine
end

section
/-! SUPPORT. Proof of the statement cited from 70_reset_and_hazards.md: what RESET leaves in every register (R340,
R65). -/

namespace Sys2Proof.Machine

open Sys2Proof.Claims

/-- R340, R184: the toggle into ACTIVE of a cleared block enters IDLE and starts the relay timer. The wait it aborts
(R234) is already cleared. -/
theorem standbyPhase_clearBlock (s : State) :
    standbyPhase true (clearBlock s) = idleEntered { clearBlock s with
      pss := { Sequencer.zero with mode := .active, relayStart := s.inputs.now } } := by
  rw [standbyPhase_toActive rfl]
  rfl

/-- Settles O39: RESET clears the block, and with the switch ACTIVE goes on as a standby toggle of the cleared block. -/
theorem resetSetsEverything : Obligations.ResetSetsEverything := by
  intro s
  refine ⟨fun hstandby => ?_, fun hactive => ?_⟩
  · exact execReset_standby hstandby
  · exact (execReset_active hactive).trans (congrArg _ (standbyPhase_clearBlock s))

end Sys2Proof.Machine
end
